-- ==== Sys2Proof/Word.lean ====
section
/-! DEFINITION. The word types of the Flaez and their plainest arithmetic (00_scope R2, R3). -/

namespace Sys2Proof

/-- A byte of a memory (R3). -/
abbrev Byte := BitVec 8
/-- A scalar register's value (R127). -/
abbrev Word := BitVec 64
/-- A Calduoc instruction word (R62). -/
abbrev Code := BitVec 128
/-- The data of a row or of a bank slot (R99, R163). -/
abbrev RowData := BitVec 4096
/-- A lane predicate (R167). -/
abbrev QReg := BitVec 512

/-- A truth value as one bit. -/
def bit (b : Bool) : BitVec 1 := if b then 1#1 else 0#1

end Sys2Proof
end

