-- ==== Sys2Proof/Syntax.lean ====
section
/-! DEFINITION. The syntax of the Flaez: operand selectors, guards, modifiers and `Instr`, one constructor for each
row of spec/opcode_table.json: the words of 03_encoding Table 4 and the steps of 95_what_each_step_holds. -/

namespace Sys2Proof

/-- An operand selector (03_encoding R67, Table 2). The encodings with a reserved class, a reserved class 0xF value or a
nonzero index bit that must be zero have no selector: the decoder rejects them with cause 0x004. -/
inductive Sel where
  | a (n : BitVec 5)
  | v (n : BitVec 8)
  | lane (aw : Bool) (n : BitVec 3)
  | p (n : BitVec 4)
  | cr (n : BitVec 8)
  | imm (v : BitVec 8)
  | acc (n : BitVec 3)
  | b (n : BitVec 3)
  | none
  | lit
  | fed
  deriving DecidableEq, Repr

/-- The C field with the literal bit (R62, R63): a 32-bit literal, or a C selector with the 20 extra modifier bits. -/
inductive Third where
  | lit (w : BitVec 32)
  | sel (s : Sel) (x : BitVec 20)
  deriving DecidableEq, Repr

/-- The guard of a word and its idle count (R62, R64, R65). -/
structure Head where
  pa : BitVec 4
  pb : BitVec 4
  pc : BitVec 4
  tt : BitVec 8
  idle : BitVec 12
  deriving DecidableEq, Repr

/-- The four operand fields (R63). -/
structure Ops where
  d : Sel
  a : Sel
  b : Sel
  c : Third
  deriving DecidableEq, Repr

/-- The common modifiers of the vector, special-function and matrix groups (R71, Table 3). In VCMP the field `rm` holds
the condition (R181). -/
structure VMod where
  z : Bool
  rm : BitVec 3
  ftz : Bool
  ty : BitVec 5
  x : Bool
  deriving DecidableEq, Repr

/-- What a companion or CXL access does (19_boundaries R392, R394): read `n` bytes, or write the bytes given, at a
physical location (11_tables R292), or, with bit 63 set, at an offset of the Caravan window (R393; log entry 22). The job
manager behind it also reports the size of the memory its port enumerates (R292), asks for a page of the HDM range to be
in host or in device bias (R394), says whether this device is the time root and over which port the root's time comes (R396),
names the port towards the mirror device (14_contexts R366), and assigns a rank to a bay (02_execution R55); log entry 66. -/
inductive HostAccess where
  | read (loc : BitVec 64) (n : Nat)
  | write (loc : BitVec 64) (bytes : List Byte)
  | size (bytes : Nat)
  | bias (page : Nat) (host : Bool)
  | nameRoot (root : Bool) (port : BitVec 5)
  | mirror (port : BitVec 5)
  | assign (b : BitVec 3) (job : BitVec 64) (rank : BitVec 20) (filler : Bool)
  deriving DecidableEq, Repr

/-- The settings a configuration image's body holds (01_device R24; 19_boundaries R394): the enabled bays, the voltage and
frequency tables of each bay, link and memory training parameters, device identity material, and the HDM range of the
LPDDR tier, in GiB. How the body encodes them the manual leaves open (log entry 66). -/
structure Settings where
  enabled : BitVec 8 := 0
  tables : List (List Byte) := []
  training : List Byte := []
  identity : List Byte := []
  hdmBase : Nat := 0
  hdmSize : Nat := 0
  deriving DecidableEq, Repr

/-- A board-flash image (19_boundaries R404, Table 4): slot, the fields of its header, its body with what that sets, and
whether its Falcon-1024 signature is that of the header and body under the root key (cryptography is outside the model:
log entry 14). `zeros` are the bytes 0x0C to 0x0F and 0x18 to 0x3F. -/
structure FlashImage where
  slotB : Bool
  magic : BitVec 32
  format : BitVec 16
  kind : BitVec 8
  die : BitVec 8
  version : BitVec 32
  zeros : List Byte
  length : BitVec 64
  body : List Byte
  settings : Settings
  signed : Bool
  deriving DecidableEq, Repr

/-- A message of the IEEE 1588 exchange of the time root with its grandmaster (19_boundaries R396, R397), in two-step mode:
Sync arrives, its Follow_Up brings the time t1 it left at, Delay_Req leaves, Delay_Resp brings the time t4 it arrived at. -/
inductive PtpMessage where
  | sync
  | followUp (t1 : BitVec 64)
  | delayReq
  | delayResp (t4 : BitVec 64)
  deriving DecidableEq, Repr

/-- What the power controller measures in a tick (19_boundaries R398 to R402): powers in mW and the hottest sensor of
each bay in degrees Celsius. -/
structure Measure where
  package : BitVec 32
  hub : BitVec 32
  bays : List (BitVec 32)
  hottest : List (BitVec 8)
  deriving DecidableEq, Repr

/-- What an instruction of the horizon check reads (05_control_registers R144): a register, semaphore, mutex, token mask or the
offset queue's mode that a write landed on; `xend` marks the landing of an XEND (10_queues R283). -/
inductive Target where
  | a (k n : Nat)
  | b (k n : Nat)
  | p (k n : Nat)
  | q (k n : Nat)
  | sem (n : Nat)
  | mtx (n : Nat)
  | tok (n : Nat)
  | xoff
  | xend
  deriving DecidableEq, Repr

/-- A rank's image as it comes from another device or from its mirror (14_contexts R362, R367): its context or, with `launch`,
the launch record of an initial snapshot, its 64 KiB pages with the locations they go to, and the landings of the seven tc
before its safe point (tile, tc, what was written), which its timetable gives (02_execution R36; log entry 88). -/
structure ImageData where
  launch : Bool
  ctx : List Byte
  pages : List (BitVec 64 × List Byte)
  hits : List (Nat × Nat × Target)
  deriving DecidableEq, Repr

/-- What a Convoy transfer does. `move`: the image whose context lies at `src` goes to `dst`, and its pages, in the order of
the rank's page tables, to the locations `frames` (14_contexts R364, R365); `stopped` says that the transfer stops before
the header. `restore`: the pages of a rank's snapshot go back, with its image's context (R367, R368), or, when the transfer stops,
the first `stopped` of them. `depart`: the image of a rank goes to another device over a fabric port; `bring`: one comes, its
context to `dst` (01_device R22; 14_contexts R362, R367), or what has come of it when the transfer stops. -/
inductive ConvoyMove where
  | move (src dst : BitVec 64) (frames : List (BitVec 64)) (stopped : Bool)
  | restore (job : BitVec 64) (rank : BitVec 20) (stopped : Option Nat)
  | depart (job : BitVec 64) (rank : BitVec 20) (port : BitVec 5)
  | bring (job : BitVec 64) (rank : BitVec 20) (port : BitVec 5) (dst : BitVec 64) (image : ImageData) (stopped : Bool)
  deriving DecidableEq, Repr

/-- The value of a tree node of a collective as it crosses to its parent's owner (12_endpoints R331, R334, R410): the
collective's id, the positions `lo` to `hi - 1` it covers, the descriptor index of the submission that formed it, its
bytes, which of them depend on a poisoned byte, and the numeric events its subtree raised, as (element, class). -/
structure ChildValue where
  id : BitVec 10
  lo : Nat
  hi : Nat
  desc : BitVec 12
  bytes : List Byte
  bad : List Bool
  evs : List (Nat × Nat)
  deriving DecidableEq, Repr

/-- A rank of a job. -/
structure RankName where
  job : BitVec 64
  rank : BitVec 20
  deriving DecidableEq, Repr

/-- A delivery to a rank (12_endpoints R335), with the fabric port over which it is told, where it is, that every receiver on
another device has its result. -/
structure Notice extends RankName where
  via : Option (BitVec 5) := none
  deriving DecidableEq, Repr

/-- Where a child value goes and how: to the endpoint of a rank, over a fabric port (12_endpoints R333; 19_boundaries R395). -/
structure ValueRoute where
  dst : RankName
  port : BitVec 5
  deriving DecidableEq, Repr

/-- The completion of a step barrier as it reaches a device (13_counters R343): the job, how many of its ranks arrived on other
devices, the fabric time at which the switch completed it, and the port it comes over. -/
structure Completion where
  job : BitVec 64
  others : Nat
  stamp : BitVec 64
  port : BitVec 5 := 0
  deriving DecidableEq, Repr

/-- The end of a bay's self-test (14_contexts R370): whether it passed, and the voltage and frequency tables loaded before it. -/
structure SelfTest where
  pass : Bool
  tables : Option (List Byte)
  deriving DecidableEq, Repr

/-- The parts whose failure takes the device out of service (01_device R23). -/
inductive SharedPart where
  | hubDie
  | neededLink
  | dieCache (die : BitVec 2)
  | hbmController (die : BitVec 2)
  deriving DecidableEq, Repr

/-- One constructor for each row of spec/opcode_table.json. A word's constructor carries its guard and idle count, its
operand fields and its typed modifiers; a step's constructor carries what the step acts on: a bay `b`, a tile
`x = 16·clid + tid`, a token `k`, a steward core `k` (0 to 7 the bay stewards, 8 the device steward). -/
inductive Instr where
  -- 0x00
  | nop (h : Head) (o : Ops)
  | wait (h : Head) (o : Ops)
  | halt (h : Head) (o : Ops)
  -- 0x01
  | btgt (h : Head) (o : Ops) (fn : Bool)
  | br (h : Head) (o : Ops)
  | call (h : Head) (o : Ops)
  | ret (h : Head) (o : Ops)
  | rdv (h : Head) (o : Ops) (bay : Bool) (step : Bool)
  | safe (h : Head) (o : Ops)
  | holdTok (h : Head) (o : Ops)
  | holdSem (h : Head) (o : Ops)
  | holdBc (h : Head) (o : Ops)
  | holdStep (h : Head) (o : Ops)
  | holdCol (h : Head) (o : Ops)
  | trap (h : Head) (o : Ops)
  | sysc (h : Head) (o : Ops)
  -- 0x02
  | lpset (h : Head) (o : Ops)
  | lpend (h : Head) (o : Ops)
  | lndef (h : Head) (o : Ops)
  | lngo (h : Head) (o : Ops)
  | lnnext (h : Head) (o : Ops)
  -- 0x03
  | mov (h : Head) (o : Ops)
  | movi (h : Head) (o : Ops) (u : Bool) (hi : Bool)
  | srd (h : Head) (o : Ops)
  | swr (h : Head) (o : Ops)
  | eret (h : Head) (o : Ops)
  | fan (h : Head) (rest : BitVec 80)
  -- 0x04
  | add (h : Head) (o : Ops)
  | sub (h : Head) (o : Ops)
  | and (h : Head) (o : Ops)
  | or (h : Head) (o : Ops)
  | xor (h : Head) (o : Ops)
  | andn (h : Head) (o : Ops)
  | shl (h : Head) (o : Ops)
  | shr (h : Head) (o : Ops)
  | sar (h : Head) (o : Ops)
  | min (h : Head) (o : Ops)
  | max (h : Head) (o : Ops)
  | minu (h : Head) (o : Ops)
  | maxu (h : Head) (o : Ops)
  | sel (h : Head) (o : Ops)
  -- 0x05
  | mul (h : Head) (o : Ops)
  | mulh (h : Head) (o : Ops) (u : Bool)
  | div (h : Head) (o : Ops) (u : Bool)
  | rem (h : Head) (o : Ops) (u : Bool)
  | clz (h : Head) (o : Ops)
  | popc (h : Head) (o : Ops)
  | ext (h : Head) (o : Ops) (sx : Bool)
  | ins (h : Head) (o : Ops)
  -- 0x06
  | cmp (h : Head) (o : Ops) (pe : BitVec 4) (cond : BitVec 4) (mode : BitVec 2)
  | pset (h : Head) (o : Ops) (pe : BitVec 4)
  | pbc (h : Head) (o : Ops) (strm : BitVec 4) (neg : Bool)
  -- 0x07
  | semw (h : Head) (o : Ops)
  | sems (h : Head) (o : Ops) (tok : Bool) (kt : BitVec 6)
  | mtxl (h : Head) (o : Ops)
  | mtxu (h : Head) (o : Ops) (tok : Bool) (kt : BitVec 6)
  -- 0x20
  | ldl (h : Head) (o : Ops) (g : BitVec 3) (w : BitVec 2) (sx : Bool)
  | stl (h : Head) (o : Ops) (g : BitVec 3) (w : BitVec 2)
  -- 0x21, 0x22
  | brd (h : Head) (o : Ops) (g : BitVec 3) (chk : Bool)
  | bwr (h : Head) (o : Ops) (g : BitVec 3)
  | brds (h : Head) (o : Ops) (g : BitVec 3) (w : BitVec 2) (sx : Bool)
  | bgth (h : Head) (o : Ops) (g : BitVec 3) (chk : Bool)
  | bsct (h : Head) (o : Ops) (g : BitVec 3) (ty : BitVec 5)
  | bfill (h : Head) (o : Ops) (g : BitVec 3) (ty : BitVec 5)
  | bchk (h : Head) (o : Ops) (g : BitVec 3)
  | batm (h : Head) (o : Ops) (g : BitVec 3) (ty : BitVec 5)
  -- 0x28 to 0x2B
  | gld (h : Head) (o : Ops) (kd : BitVec 6) (g : BitVec 3)
  | gst (h : Head) (o : Ops) (kd : BitVec 6) (g : BitVec 3)
  | gcpy (h : Head) (o : Ops) (kd : BitVec 6)
  | gpf (h : Head) (o : Ops) (kd : BitVec 6)
  | ginv (h : Head) (o : Ops) (kd : BitVec 6)
  | gwb (h : Head) (o : Ops) (kd : BitVec 6)
  | ggth (h : Head) (o : Ops) (kd : BitVec 6) (g : BitVec 3)
  | gsct (h : Head) (o : Ops) (kd : BitVec 6) (g : BitVec 3)
  | gatm (h : Head) (o : Ops) (kd : BitVec 6) (g : BitVec 3) (ret : Bool)
  | glev (h : Head) (o : Ops) (kd : BitVec 6)
  -- 0x30
  | acq (h : Head) (o : Ops) (kd : BitVec 6) (scope : BitVec 4)
  | rel (h : Head) (o : Ops) (kd : BitVec 6) (scope : BitVec 4)
  | fence (h : Head) (o : Ops) (kd : BitVec 6) (scope : BitVec 4)
  -- 0x31
  | bind (h : Head) (o : Ops)
  | st64 (h : Head) (o : Ops)
  | waita (h : Head) (o : Ops) (cond : BitVec 3)
  -- 0x40
  | vadd (h : Head) (o : Ops) (m : VMod)
  | vsub (h : Head) (o : Ops) (m : VMod)
  | vmul (h : Head) (o : Ops) (m : VMod)
  | vfma (h : Head) (o : Ops) (m : VMod)
  | vfms (h : Head) (o : Ops) (m : VMod)
  | vneg (h : Head) (o : Ops) (m : VMod)
  | vabs (h : Head) (o : Ops) (m : VMod)
  -- 0x41
  | vmin (h : Head) (o : Ops) (m : VMod)
  | vmax (h : Head) (o : Ops) (m : VMod)
  | vminn (h : Head) (o : Ops) (m : VMod)
  | vmaxn (h : Head) (o : Ops) (m : VMod)
  | vmaxi (h : Head) (o : Ops) (m : VMod)
  | vmini (h : Head) (o : Ops) (m : VMod)
  | vcmp (h : Head) (o : Ops) (m : VMod)
  | vsel (h : Head) (o : Ops) (m : VMod)
  -- 0x42
  | vcvt (h : Head) (o : Ops) (m : VMod)
  | vscl (h : Head) (o : Ops) (m : VMod)
  | vpack (h : Head) (o : Ops) (m : VMod)
  | vunpk (h : Head) (o : Ops) (m : VMod)
  | vtag (h : Head) (o : Ops) (m : VMod)
  -- 0x43, 0x44
  | viadd (h : Head) (o : Ops) (m : VMod)
  | visub (h : Head) (o : Ops) (m : VMod)
  | vimul (h : Head) (o : Ops) (m : VMod)
  | vand (h : Head) (o : Ops) (m : VMod)
  | vor (h : Head) (o : Ops) (m : VMod)
  | vxor (h : Head) (o : Ops) (m : VMod)
  | vnot (h : Head) (o : Ops) (m : VMod)
  | vshl (h : Head) (o : Ops) (m : VMod)
  | vshr (h : Head) (o : Ops) (m : VMod)
  | vsar (h : Head) (o : Ops) (m : VMod)
  | vdot (h : Head) (o : Ops) (m : VMod)
  -- 0x45
  | vmov (h : Head) (o : Ops) (m : VMod)
  | vlit (h : Head) (o : Ops) (m : VMod)
  | vbcst (h : Head) (o : Ops) (m : VMod)
  | vperm (h : Head) (o : Ops) (m : VMod)
  | vshf (h : Head) (o : Ops) (m : VMod)
  -- 0x46
  | vred (h : Head) (o : Ops) (m : VMod)
  | vscan (h : Head) (o : Ops) (m : VMod)
  | vcmpt (h : Head) (o : Ops) (m : VMod)
  -- 0x47
  | vany (h : Head) (o : Ops)
  | vall (h : Head) (o : Ops)
  | vpopc (h : Head) (o : Ops) (ty : BitVec 5)
  | qsetLen (h : Head) (o : Ops) (z : Bool) (ty : BitVec 5)
  | qsetBc (h : Head) (o : Ops) (z : Bool)
  | qsetFn (h : Head) (o : Ops) (z : Bool)
  | qsetCopy (h : Head) (o : Ops) (z : Bool)
  -- 0x48, 0x49
  | vrng (h : Head) (o : Ops) (m : VMod)
  | vhsh (h : Head) (o : Ops) (m : VMod)
  | vatc (h : Head) (o : Ops) (m : VMod)
  | vatf (h : Head) (o : Ops) (m : VMod)
  -- 0x60
  | fexp2 (h : Head) (o : Ops) (m : VMod)
  | flog2 (h : Head) (o : Ops) (m : VMod)
  | frcp (h : Head) (o : Ops) (m : VMod)
  | frsq (h : Head) (o : Ops) (m : VMod)
  | fsqrt (h : Head) (o : Ops) (m : VMod)
  | fsin (h : Head) (o : Ops) (m : VMod)
  | fcos (h : Head) (o : Ops) (m : VMod)
  | ftanh (h : Head) (o : Ops) (m : VMod)
  | fsigm (h : Head) (o : Ops) (m : VMod)
  | ferf (h : Head) (o : Ops) (m : VMod)
  -- 0x68
  | xbmp (h : Head) (o : Ops) (slot : Bool) (g : BitVec 3)
  | xrle (h : Head) (o : Ops) (slot : Bool) (g : BitVec 3)
  | xcsr (h : Head) (o : Ops) (slot : Bool) (g : BitVec 3)
  | xidx (h : Head) (o : Ops) (slot : Bool) (g : BitVec 3) (ty : BitVec 5)
  | xrate (h : Head) (o : Ops)
  | xoff (h : Head) (o : Ops) (strict : Bool)
  | xend (h : Head) (o : Ops)
  | xcnt (h : Head) (o : Ops)
  -- 0x70 to 0x72
  | mzero (h : Head) (o : Ops)
  | manc (h : Head) (o : Ops)
  | mldb (h : Head) (o : Ops) (m : VMod)
  | mma (h : Head) (o : Ops) (m : VMod)
  | mmas (h : Head) (o : Ops) (m : VMod)
  | mmat (h : Head) (o : Ops) (m : VMod)
  | mrd (h : Head) (o : Ops) (m : VMod)
  | mwr (h : Head) (o : Ops) (m : VMod)
  | macc (h : Head) (o : Ops) (m : VMod)
  -- 0x78
  | xsnd (h : Head) (o : Ops)
  | xrcv (h : Head) (o : Ops)
  -- hints, reserved, illegal, block header: `rest` holds bits [79:0], which such a word's fate does not read
  | pfi (h : Head) (min : BitVec 8) (rest : BitVec 80)
  | hnt (h : Head) (maj : BitVec 8) (min : BitVec 8) (rest : BitVec 80)
  | reservedMajorOpcode (h : Head) (maj : BitVec 8) (min : BitVec 8) (rest : BitVec 80)
  | illegalMajorOpcode (h : Head) (maj : BitVec 8) (min : BitVec 8) (rest : BitVec 80)
  | portableBlockHeader (h : Head) (min : BitVec 8) (rest : BitVec 80)
  -- steps inside a bay's timetable
  | writeLanding (b : BitVec 3)
  | laneValueDrop (b : BitVec 3) (x : BitVec 7)
  | launchRecordPost (b : BitVec 3)
  | muster (b : BitVec 3)
  | freezeRelease (b : BitVec 3)
  | preemptionRequest (b : BitVec 3)
  | debugStop (b : BitVec 3)
  | rankSwitch (b : BitVec 3)
  | contextSave (b : BitVec 3)
  | stepImageSave (b : BitVec 3)
  | stepBarrierComplete (c : Completion)
  | milestoneChange (job : BitVec 64)
  | trapReport (b : BitVec 3)
  | rankEnd (b : BitVec 3)
  -- steward steps
  | asyncDelivery (k : BitVec 4)
  | faultWindowPop (q : BitVec 6)
  | requestWindowPop (b : BitVec 3)
  | carveWrite (b : BitVec 3) (cl : BitVec 3) (v : BitVec 64)
  | carveTakesEffect (b : BitVec 3)
  | stargWrite (k : BitVec 4) (v : BitVec 64)
  | pwrctlWrite (off : BitVec 8) (v : BitVec 64)
  | doorbell (v : BitVec 64)
  -- asynchronous work of a tile
  | gatewayCommandStart (b : BitVec 3) (x : BitVec 7) (k : BitVec 6)
  | gatewayFill (b : BitVec 3) (x : BitVec 7) (k : BitVec 6) (j : BitVec 7)
  | tokenCompletion (b : BitVec 3) (x : BitVec 7) (k : BitVec 6)
  | watcherRead (b : BitVec 3) (x : BitVec 7)
  | sxJobStart (b : BitVec 3) (x : BitVec 7)
  | offsetPush (b : BitVec 3) (x : BitVec 7)
  | exchangeArrival (b : BitVec 3) (x : BitVec 7)
  | prefetchStaging (b : BitVec 3) (cl : BitVec 3)
  -- collectives
  | contributionArrival (b : BitVec 3) (x : BitVec 7) (k : BitVec 6) (j : Nat)
  | childValueTransfer (way : ValueRoute) (v : ChildValue)
  | nodeCombine (r : RankName) (id : BitVec 10) (lo hi : Nat)
  | collectiveDelivery (r : Notice) (id : BitVec 10)
  -- device steps
  | convoyTransfer (m : ConvoyMove)
  | linkDown (port : BitVec 5)
  | telemetryTick (m : Measure)
  | eventWindowClear (b : BitVec 3)
  | ptpMessage (m : PtpMessage)
  | pathDelayExchange (upstream : BitVec 64) (aligned : Bool)
  | deviceReset
  | bayDrain (b : BitVec 3)
  | baySelfTest (b : BitVec 3) (t : SelfTest)
  | hbmRetrain (stack : BitVec 4)
  | firmwareUpdate (img : FlashImage)
  | attestationRequest (management : Bool) (req : List Byte)
  | companionAccess (a : HostAccess)
  | cxlAccess (a : HostAccess)
  | fillerSwitchIn (b : BitVec 3)
  | fabricLinkRetrain (port : BitVec 5)
  | sharedPartFailure (p : SharedPart)
  | boardPowerLoss
  deriving DecidableEq, Repr

end Sys2Proof
end

