-- ==== Sys2Proof/Decode.lean ====
section
/-! DEFINITION. The decoder of 128-bit Calduoc words, total on any bits, and the encoder of the words of `Instr`
(03_encoding R62 to R73). A word that no row of Table 4 can be is rejected by the cause Table 5 or R63 names for it:
`unassignedMinor` (0x002) or `badField` (0x004, the lowest cause such an active word can raise by R74). -/

namespace Sys2Proof

/-- Why a word has no instruction. Both fates are guarded traps (Table 5, R63), so the head and the major opcode, which
say how the guard is read, are kept. -/
inductive DecodeError where
  | unassignedMinor (h : Head) (maj : BitVec 8)
  | badField (h : Head) (maj : BitVec 8)
  deriving DecidableEq, Repr

/-- An operand selector's 12 bits (R67, Table 2); `none` is a reserved class, a reserved class 0xF value or a nonzero
index bit that must be zero. -/
def decodeSel (w : BitVec 12) : Option Sel :=
  let i := w.extractLsb' 0 8
  match (w.extractLsb' 8 4).toNat with
  | 0x0 => if i.extractLsb' 5 3 = 0#3 then some (.a (i.extractLsb' 0 5)) else none
  | 0x1 => some (.v i)
  | 0x2 => if i.extractLsb' 5 3 = 0#3 ∧ i.getLsbD 3 = false then
      some (.lane (i.getLsbD 4) (i.extractLsb' 0 3)) else none
  | 0x3 => if i.extractLsb' 4 4 = 0#4 then some (.p (i.extractLsb' 0 4)) else none
  | 0x4 => some (.cr i)
  | 0x5 => some (.imm i)
  | 0x6 => if i.extractLsb' 3 5 = 0#5 then some (.acc (i.extractLsb' 0 3)) else none
  | 0x7 => if i.extractLsb' 3 5 = 0#5 then some (.b (i.extractLsb' 0 3)) else none
  | 0xF => match i.toNat with
    | 0 => some .none
    | 1 => some .lit
    | 2 => some .fed
    | _ => none
  | _ => none

/-- The 12 bits of an operand selector (Table 2). -/
def encodeSel : Sel → BitVec 12
  | .a n => 0x0#4 ++ 0#3 ++ n
  | .v n => 0x1#4 ++ n
  | .lane aw n => 0x2#4 ++ 0#3 ++ bit aw ++ 0#1 ++ n
  | .p n => 0x3#4 ++ 0#4 ++ n
  | .cr n => 0x4#4 ++ n
  | .imm v => 0x5#4 ++ v
  | .acc n => 0x6#4 ++ 0#5 ++ n
  | .b n => 0x7#4 ++ 0#5 ++ n
  | .none => 0xF00#12
  | .lit => 0xF01#12
  | .fed => 0xF02#12

/-- The head of a word: its guard and idle count (R62). -/
def headOf (w : Code) : Head :=
  { pa := w.extractLsb' 108 4, pb := w.extractLsb' 104 4, pc := w.extractLsb' 100 4
    tt := w.extractLsb' 92 8, idle := w.extractLsb' 80 12 }

/-- The operand fields of a word, given which of the twenty extra modifier bits its row defines (R63); `none` is a
reserved selector or a nonzero bit that must be zero. -/
def opsOf (w : Code) (xmask : BitVec 20) : Option Ops := do
  let d ← decodeSel (w.extractLsb' 68 12)
  let a ← decodeSel (w.extractLsb' 56 12)
  let b ← decodeSel (w.extractLsb' 44 12)
  if w.getLsbD 32 then some { d, a, b, c := .lit (w.extractLsb' 0 32) }
  else
    let c ← decodeSel (w.extractLsb' 20 12)
    let x := w.extractLsb' 0 20
    if x &&& ~~~xmask = 0#20 then some { d, a, b, c := .sel c x } else none

/-- What a row of Table 4 makes of a word whose M[11:1] are given: the extra modifier bits it defines and the
instruction, or nothing when a bit of M that must be zero is not. -/
abbrev Shape := Option (BitVec 20 × (Head → Ops → Instr))

/-- A row that defines the bits `mask` of M[11:1] and the extra bits `xmask` (R63). -/
def form (m mask : BitVec 11) (xmask : BitVec 20) (mk : Head → Ops → Instr) : Shape :=
  if m &&& ~~~mask = 0#11 then some (xmask, mk) else none

/-- `form` for a row that uses the rounding-mode field, whose values 5 to 7 are reserved (Table 3). -/
def formRm (m mask : BitVec 11) (xmask : BitVec 20) (mk : Head → Ops → Instr) : Shape :=
  if (m.extractLsb' 1 3).toNat < 5 then form m mask xmask mk else none

/-- All twenty extra modifier bits. -/
def xAll : BitVec 20 := 0xFFFFF#20

/-- The common modifiers of Table 3. -/
def vmod (m : BitVec 11) : VMod :=
  { z := m.getLsbD 0, rm := m.extractLsb' 1 3, ftz := m.getLsbD 4, ty := m.extractLsb' 5 5, x := m.getLsbD 10 }

/-- HOLD's kinds in M[3:1] (05_control_registers Table 9); kinds 5 to 7 are cause 0x004. -/
def holdForm (m : BitVec 11) : Shape :=
  match (m.extractLsb' 0 3).toNat with
  | 0 => form m 0x007 0 .holdTok
  | 1 => form m 0x007 0 .holdSem
  | 2 => form m 0x007 0 .holdBc
  | 3 => form m 0x007 0 .holdStep
  | 4 => form m 0x007 0 .holdCol
  | _ => none

/-- QSET's forms in M[4:2] (06_vector_rows R198); forms 4 to 7 are cause 0x004. -/
def qsetForm (m : BitVec 11) : Shape :=
  match (m.extractLsb' 1 3).toNat with
  | 0 => form m 0x3EF 0 (fun h o => .qsetLen h o (m.getLsbD 0) (m.extractLsb' 5 5))
  | 1 => form m 0x00F 0 (fun h o => .qsetBc h o (m.getLsbD 0))
  | 2 => form m 0x00F 0 (fun h o => .qsetFn h o (m.getLsbD 0))
  | 3 => form m 0x00F 0xF (fun h o => .qsetCopy h o (m.getLsbD 0))
  | _ => none

/-- Group 0x00 of Table 4. -/
def rows00 (min : Nat) (m : BitVec 11) : Option Shape :=
  match min with
  | 0 => some (form m 0x000 0 .nop)
  | 1 => some (form m 0x000 0 .wait)
  | 2 => some (form m 0x000 0 .halt)
  | _ => none

/-- Group 0x01 of Table 4. -/
def rows01 (min : Nat) (m : BitVec 11) : Option Shape :=
  match min with
  | 0 => some (form m 0x001 0 (fun h o => .btgt h o (m.getLsbD 0)))
  | 1 => some (form m 0x000 0 .br)
  | 2 => some (form m 0x000 0 .call)
  | 3 => some (form m 0x000 0 .ret)
  | 4 => some (form m 0x003 0 (fun h o => .rdv h o (m.getLsbD 0) (m.getLsbD 1)))
  | 5 => some (form m 0x000 0 .safe)
  | 6 => some (holdForm m)
  | 7 => some (form m 0x000 0 .trap)
  | 8 => some (form m 0x000 0 .sysc)
  | _ => none

/-- Group 0x02 of Table 4. -/
def rows02 (min : Nat) (m : BitVec 11) : Option Shape :=
  match min with
  | 0 => some (form m 0x000 0 .lpset)
  | 1 => some (form m 0x000 0 .lpend)
  | 2 => some (form m 0x000 0 .lndef)
  | 3 => some (form m 0x000 0 .lngo)
  | 4 => some (form m 0x000 0 .lnnext)
  | _ => none

/-- Group 0x03 of Table 4. -/
def rows03 (min : Nat) (m : BitVec 11) : Option Shape :=
  match min with
  | 0 => some (form m 0x000 0 .mov)
  | 1 => some (form m 0x003 0 (fun h o => .movi h o (m.getLsbD 0) (m.getLsbD 1)))
  | 2 => some (form m 0x000 0 .srd)
  | 3 => some (form m 0x000 0 .swr)
  | 4 => some (form m 0x000 0 .eret)
  | _ => none

/-- Group 0x04 of Table 4. -/
def rows04 (min : Nat) (m : BitVec 11) : Option Shape :=
  match min with
  | 0 => some (form m 0x000 0 .add)
  | 1 => some (form m 0x000 0 .sub)
  | 2 => some (form m 0x000 0 .and)
  | 3 => some (form m 0x000 0 .or)
  | 4 => some (form m 0x000 0 .xor)
  | 5 => some (form m 0x000 0 .andn)
  | 6 => some (form m 0x000 0 .shl)
  | 7 => some (form m 0x000 0 .shr)
  | 8 => some (form m 0x000 0 .sar)
  | 9 => some (form m 0x000 0 .min)
  | 10 => some (form m 0x000 0 .max)
  | 11 => some (form m 0x000 0 .minu)
  | 12 => some (form m 0x000 0 .maxu)
  | 13 => some (form m 0x000 0 .sel)
  | _ => none

/-- Group 0x05 of Table 4. -/
def rows05 (min : Nat) (m : BitVec 11) : Option Shape :=
  match min with
  | 0 => some (form m 0x000 0 .mul)
  | 1 => some (form m 0x001 0 (fun h o => .mulh h o (m.getLsbD 0)))
  | 2 => some (form m 0x001 0 (fun h o => .div h o (m.getLsbD 0)))
  | 3 => some (form m 0x001 0 (fun h o => .rem h o (m.getLsbD 0)))
  | 4 => some (form m 0x000 0 .clz)
  | 5 => some (form m 0x000 0 .popc)
  | 6 => some (form m 0x001 0 (fun h o => .ext h o (m.getLsbD 0)))
  | 7 => some (form m 0x000 0 .ins)
  | _ => none

/-- Group 0x06 of Table 4. -/
def rows06 (min : Nat) (m : BitVec 11) : Option Shape :=
  match min with
  | 0 => some (form m 0x3ff 0 (fun h o => .cmp h o (m.extractLsb' 0 4) (m.extractLsb' 4 4) (m.extractLsb' 8 2)))
  | 1 => some (form m 0x00f 0 (fun h o => .pset h o (m.extractLsb' 0 4)))
  | 2 => some (form m 0x01f 0 (fun h o => .pbc h o (m.extractLsb' 0 4) (m.getLsbD 4)))
  | _ => none

/-- Group 0x07 of Table 4. -/
def rows07 (min : Nat) (m : BitVec 11) : Option Shape :=
  match min with
  | 0 => some (form m 0x000 0 .semw)
  | 1 => some (form m 0x07f 0 (fun h o => .sems h o (m.getLsbD 6) (m.extractLsb' 0 6)))
  | 2 => some (form m 0x000 0 .mtxl)
  | 3 => some (form m 0x07f 0 (fun h o => .mtxu h o (m.getLsbD 6) (m.extractLsb' 0 6)))
  | _ => none

/-- Group 0x20 of Table 4. -/
def rows20 (min : Nat) (m : BitVec 11) : Option Shape :=
  match min with
  | 0 => some (form m 0x03f 0 (fun h o => .ldl h o (m.extractLsb' 0 3) (m.extractLsb' 3 2) (m.getLsbD 5)))
  | 1 => some (form m 0x01f 0 (fun h o => .stl h o (m.extractLsb' 0 3) (m.extractLsb' 3 2)))
  | _ => none

/-- Group 0x21 of Table 4. -/
def rows21 (min : Nat) (m : BitVec 11) : Option Shape :=
  match min with
  | 0 => some (form m 0x00f 0 (fun h o => .brd h o (m.extractLsb' 0 3) (m.getLsbD 3)))
  | 1 => some (form m 0x007 0 (fun h o => .bwr h o (m.extractLsb' 0 3)))
  | 2 => some (form m 0x03f 0 (fun h o => .brds h o (m.extractLsb' 0 3) (m.extractLsb' 3 2) (m.getLsbD 5)))
  | 3 => some (form m 0x00f 0 (fun h o => .bgth h o (m.extractLsb' 0 3) (m.getLsbD 3)))
  | 4 => some (form m 0x0ff 0 (fun h o => .bsct h o (m.extractLsb' 0 3) (m.extractLsb' 3 5)))
  | 5 => some (form m 0x0ff 0 (fun h o => .bfill h o (m.extractLsb' 0 3) (m.extractLsb' 3 5)))
  | 6 => some (form m 0x007 0 (fun h o => .bchk h o (m.extractLsb' 0 3)))
  | _ => none

/-- Group 0x22 of Table 4. -/
def rows22 (min : Nat) (m : BitVec 11) : Option Shape :=
  match min with
  | 0 => some (form m 0x0ff 0xF (fun h o => .batm h o (m.extractLsb' 0 3) (m.extractLsb' 3 5)))
  | _ => none

/-- Group 0x28 of Table 4. -/
def rows28 (min : Nat) (m : BitVec 11) : Option Shape :=
  match min with
  | 0 => some (form m 0x1ff xAll (fun h o => .gld h o (m.extractLsb' 0 6) (m.extractLsb' 6 3)))
  | 1 => some (form m 0x1ff xAll (fun h o => .gst h o (m.extractLsb' 0 6) (m.extractLsb' 6 3)))
  | 2 => some (form m 0x03f xAll (fun h o => .gcpy h o (m.extractLsb' 0 6)))
  | 3 => some (form m 0x03f xAll (fun h o => .gpf h o (m.extractLsb' 0 6)))
  | 4 => some (form m 0x03f xAll (fun h o => .ginv h o (m.extractLsb' 0 6)))
  | 5 => some (form m 0x03f xAll (fun h o => .gwb h o (m.extractLsb' 0 6)))
  | _ => none

/-- Group 0x29 of Table 4. -/
def rows29 (min : Nat) (m : BitVec 11) : Option Shape :=
  match min with
  | 0 => some (form m 0x1ff xAll (fun h o => .ggth h o (m.extractLsb' 0 6) (m.extractLsb' 6 3)))
  | 1 => some (form m 0x1ff xAll (fun h o => .gsct h o (m.extractLsb' 0 6) (m.extractLsb' 6 3)))
  | _ => none

/-- Group 0x2A of Table 4. -/
def rows2A (min : Nat) (m : BitVec 11) : Option Shape :=
  match min with
  | 0 => some (form m 0x3ff xAll (fun h o => .gatm h o (m.extractLsb' 0 6) (m.extractLsb' 6 3) (m.getLsbD 9)))
  | _ => none

/-- Group 0x2B of Table 4. -/
def rows2B (min : Nat) (m : BitVec 11) : Option Shape :=
  match min with
  | 0 => some (form m 0x03f xAll (fun h o => .glev h o (m.extractLsb' 0 6)))
  | _ => none

/-- Group 0x30 of Table 4. -/
def rows30 (min : Nat) (m : BitVec 11) : Option Shape :=
  match min with
  | 0 => some (form m 0x3ff xAll (fun h o => .acq h o (m.extractLsb' 0 6) (m.extractLsb' 6 4)))
  | 1 => some (form m 0x3ff xAll (fun h o => .rel h o (m.extractLsb' 0 6) (m.extractLsb' 6 4)))
  | 2 => some (form m 0x3ff xAll (fun h o => .fence h o (m.extractLsb' 0 6) (m.extractLsb' 6 4)))
  | _ => none

/-- Group 0x31 of Table 4. -/
def rows31 (min : Nat) (m : BitVec 11) : Option Shape :=
  match min with
  | 0 => some (form m 0x000 0 .bind)
  | 1 => some (form m 0x000 0 .st64)
  | 2 => some (form m 0x007 0 (fun h o => .waita h o (m.extractLsb' 0 3)))
  | _ => none

/-- Group 0x40 of Table 4. -/
def rows40 (min : Nat) (m : BitVec 11) : Option Shape :=
  match min with
  | 0 => some (formRm m 0x3ff 0 (fun h o => .vadd h o (vmod m)))
  | 1 => some (formRm m 0x3ff 0 (fun h o => .vsub h o (vmod m)))
  | 2 => some (formRm m 0x3ff 0 (fun h o => .vmul h o (vmod m)))
  | 3 => some (formRm m 0x3ff 0 (fun h o => .vfma h o (vmod m)))
  | 4 => some (formRm m 0x3ff 0 (fun h o => .vfms h o (vmod m)))
  | 5 => some (form m 0x3e1 0 (fun h o => .vneg h o (vmod m)))
  | 6 => some (form m 0x3e1 0 (fun h o => .vabs h o (vmod m)))
  | _ => none

/-- Group 0x41 of Table 4. VSEL's ftz must be 0, as a bit it does not use (R71): R182, which names rm and M[11] alone, does not say
(DESIGN CHOICE, log entry 93). -/
def rows41 (min : Nat) (m : BitVec 11) : Option Shape :=
  match min with
  | 0 => some (form m 0x3e1 0 (fun h o => .vmin h o (vmod m)))
  | 1 => some (form m 0x3e1 0 (fun h o => .vmax h o (vmod m)))
  | 2 => some (form m 0x3e1 0 (fun h o => .vminn h o (vmod m)))
  | 3 => some (form m 0x3e1 0 (fun h o => .vmaxn h o (vmod m)))
  | 4 => some (form m 0x3e1 0 (fun h o => .vmaxi h o (vmod m)))
  | 5 => some (form m 0x3e1 0 (fun h o => .vmini h o (vmod m)))
  | 6 => some (form m 0x7ff 0 (fun h o => .vcmp h o (vmod m)))
  | 7 => some (form m 0x3e1 0 (fun h o => .vsel h o (vmod m)))
  | _ => none

/-- Group 0x42 of Table 4. rm and ftz must be 0, as bits they do not use (R71), in VPACK, VUNPK and VTAG, of which their own rules do
not say so (DESIGN CHOICE, log entry 93). -/
def rows42 (min : Nat) (m : BitVec 11) : Option Shape :=
  match min with
  | 0 => some (formRm m 0x3ff 0x1F (fun h o => .vcvt h o (vmod m)))
  | 1 => some (formRm m 0x3ff 0 (fun h o => .vscl h o (vmod m)))
  | 2 => some (form m 0x7e1 (if m.getLsbD 10 then 1 else 0) (fun h o => .vpack h o (vmod m)))
  | 3 => some (form m 0x7e1 (if m.getLsbD 10 then 1 else 0) (fun h o => .vunpk h o (vmod m)))
  | 4 => some (form m 0x3e1 0 (fun h o => .vtag h o (vmod m)))
  | _ => none

/-- Group 0x43 of Table 4. -/
def rows43 (min : Nat) (m : BitVec 11) : Option Shape :=
  match min with
  | 0 => some (form m 0x7e1 0 (fun h o => .viadd h o (vmod m)))
  | 1 => some (form m 0x7e1 0 (fun h o => .visub h o (vmod m)))
  | 2 => some (form m 0x7e1 0 (fun h o => .vimul h o (vmod m)))
  | 3 => some (form m 0x3e1 0 (fun h o => .vand h o (vmod m)))
  | 4 => some (form m 0x3e1 0 (fun h o => .vor h o (vmod m)))
  | 5 => some (form m 0x3e1 0 (fun h o => .vxor h o (vmod m)))
  | 6 => some (form m 0x3e1 0 (fun h o => .vnot h o (vmod m)))
  | 7 => some (form m 0x3e1 0 (fun h o => .vshl h o (vmod m)))
  | 8 => some (form m 0x3e1 0 (fun h o => .vshr h o (vmod m)))
  | 9 => some (form m 0x3e1 0 (fun h o => .vsar h o (vmod m)))
  | _ => none

/-- Group 0x44 of Table 4. -/
def rows44 (min : Nat) (m : BitVec 11) : Option Shape :=
  match min with
  | 0 => some (form m 0x3e1 0xF (fun h o => .vdot h o (vmod m)))
  | _ => none

/-- Group 0x45 of Table 4. rm and ftz must be 0, as bits they do not use (R71), in VMOV, VLIT, VBCST, VPERM and VSHF, of which their own rules do
not say so (DESIGN CHOICE, log entry 93). -/
def rows45 (min : Nat) (m : BitVec 11) : Option Shape :=
  match min with
  | 0 => some (form m 0x3e1 0 (fun h o => .vmov h o (vmod m)))
  | 1 => some (form m 0x7e1 0 (fun h o => .vlit h o (vmod m)))
  | 2 => some (form m 0x3e1 0 (fun h o => .vbcst h o (vmod m)))
  | 3 => some (form m 0x3e1 0 (fun h o => .vperm h o (vmod m)))
  | 4 => some (form m 0x3e1 0 (fun h o => .vshf h o (vmod m)))
  | _ => none

/-- Group 0x46 of Table 4. rm and ftz must be 0, as bits they do not use (R71), in VCMPT, of which their own rules do
not say so (DESIGN CHOICE, log entry 93). -/
def rows46 (min : Nat) (m : BitVec 11) : Option Shape :=
  match min with
  | 0 => some (formRm m 0x3fe 0xF (fun h o => .vred h o (vmod m)))
  | 1 => some (formRm m 0x7ff 0xF (fun h o => .vscan h o (vmod m)))
  | 2 => some (form m 0x3e0 0 (fun h o => .vcmpt h o (vmod m)))
  | _ => none

/-- Group 0x47 of Table 4. rm and ftz must be 0, as bits they do not use (R71), in VPOPC, of which their own rules do
not say so (DESIGN CHOICE, log entry 93). -/
def rows47 (min : Nat) (m : BitVec 11) : Option Shape :=
  match min with
  | 0 => some (form m 0x000 0xF .vany)
  | 1 => some (form m 0x000 0xF .vall)
  | 2 => some (form m 0x3e0 0 (fun h o => .vpopc h o (m.extractLsb' 5 5)))
  | 3 => some (qsetForm m)
  | _ => none

/-- Group 0x48 of Table 4. VRNG's ftz, and rm and ftz of VHSH, must be 0, as bits they do not use (R71): their own rules do not say so
(DESIGN CHOICE, log entry 93). -/
def rows48 (min : Nat) (m : BitVec 11) : Option Shape :=
  match min with
  | 0 => some (form m 0x3e1 0 (fun h o => .vrng h o (vmod m)))
  | 1 => some (form m 0x3e1 0 (fun h o => .vhsh h o (vmod m)))
  | _ => none

/-- Group 0x49 of Table 4. ftz of VATC and VATF must be 0, as a bit they do not use (R71): 06_vector_rows names rm alone (DESIGN
CHOICE, log entry 93). -/
def rows49 (min : Nat) (m : BitVec 11) : Option Shape :=
  match min with
  | 0 => some (form m 0x3e1 0 (fun h o => .vatc h o (vmod m)))
  | 1 => some (form m 0x3e0 0 (fun h o => .vatf h o (vmod m)))
  | _ => none

/-- Group 0x60 of Table 4. -/
def rows60 (min : Nat) (m : BitVec 11) : Option Shape :=
  match min with
  | 0 => some (formRm m 0x3ff 0 (fun h o => .fexp2 h o (vmod m)))
  | 1 => some (formRm m 0x3ff 0 (fun h o => .flog2 h o (vmod m)))
  | 2 => some (formRm m 0x3ff 0 (fun h o => .frcp h o (vmod m)))
  | 3 => some (formRm m 0x3ff 0 (fun h o => .frsq h o (vmod m)))
  | 4 => some (formRm m 0x3ff 0 (fun h o => .fsqrt h o (vmod m)))
  | 5 => some (formRm m 0x3ff 0 (fun h o => .fsin h o (vmod m)))
  | 6 => some (formRm m 0x3ff 0 (fun h o => .fcos h o (vmod m)))
  | 7 => some (formRm m 0x3ff 0 (fun h o => .ftanh h o (vmod m)))
  | 8 => some (formRm m 0x3ff 0 (fun h o => .fsigm h o (vmod m)))
  | 9 => some (formRm m 0x3ff 0 (fun h o => .ferf h o (vmod m)))
  | _ => none

/-- Group 0x68 of Table 4. -/
def rows68 (min : Nat) (m : BitVec 11) : Option Shape :=
  match min with
  | 0 => some (form m 0x00f (if m.getLsbD 3 then xAll else 0) (fun h o => .xbmp h o (m.getLsbD 3) (m.extractLsb' 0 3)))
  | 1 => some (form m 0x00f (if m.getLsbD 3 then xAll else 0) (fun h o => .xrle h o (m.getLsbD 3) (m.extractLsb' 0 3)))
  | 2 => some (form m 0x00f (if m.getLsbD 3 then xAll else 0) (fun h o => .xcsr h o (m.getLsbD 3) (m.extractLsb' 0 3)))
  | 3 => some (form m 0x3ef (if m.getLsbD 3 then xAll else 0) (fun h o => .xidx h o (m.getLsbD 3) (m.extractLsb' 0 3) (m.extractLsb' 5 5)))
  | 4 => some (form m 0x000 0 .xrate)
  | 5 => some (form m 0x001 0 (fun h o => .xoff h o (m.getLsbD 0)))
  | 6 => some (form m 0x000 0 .xend)
  | 7 => some (form m 0x000 0 .xcnt)
  | _ => none

/-- Group 0x70 of Table 4. -/
def rows70 (min : Nat) (m : BitVec 11) : Option Shape :=
  match min with
  | 0 => some (form m 0x000 0 .mzero)
  | 1 => some (form m 0x000 0 .manc)
  | 2 => some (form m 0x7f0 0 (fun h o => .mldb h o (vmod m)))
  | _ => none

/-- Group 0x71 of Table 4. -/
def rows71 (min : Nat) (m : BitVec 11) : Option Shape :=
  match min with
  | 0 => some (form m 0x7f1 0 (fun h o => .mma h o (vmod m)))
  | 1 => some (form m 0x3f1 0 (fun h o => .mmas h o (vmod m)))
  | 2 => some (form m 0x7f1 0 (fun h o => .mmat h o (vmod m)))
  | _ => none

/-- Group 0x72 of Table 4. -/
def rows72 (min : Nat) (m : BitVec 11) : Option Shape :=
  match min with
  | 0 => some (formRm m 0x3ff 0 (fun h o => .mrd h o (vmod m)))
  | 1 => some (form m 0x3f1 0 (fun h o => .mwr h o (vmod m)))
  | 2 => some (form m 0x3f1 0 (fun h o => .macc h o (vmod m)))
  | _ => none

/-- Group 0x78 of Table 4. -/
def rows78 (min : Nat) (m : BitVec 11) : Option Shape :=
  match min with
  | 0 => some (form m 0x000 0 .xsnd)
  | 1 => some (form m 0x000 0 .xrcv)
  | _ => none

/-- The rows of an assigned major opcode (Table 4); `none` when the major opcode is not assigned. -/
def rowOf (maj min : Nat) (m : BitVec 11) : Option (Option Shape) :=
  match maj with
  | 0x00 => some (rows00 min m)
  | 0x01 => some (rows01 min m)
  | 0x02 => some (rows02 min m)
  | 0x03 => some (rows03 min m)
  | 0x04 => some (rows04 min m)
  | 0x05 => some (rows05 min m)
  | 0x06 => some (rows06 min m)
  | 0x07 => some (rows07 min m)
  | 0x20 => some (rows20 min m)
  | 0x21 => some (rows21 min m)
  | 0x22 => some (rows22 min m)
  | 0x28 => some (rows28 min m)
  | 0x29 => some (rows29 min m)
  | 0x2A => some (rows2A min m)
  | 0x2B => some (rows2B min m)
  | 0x30 => some (rows30 min m)
  | 0x31 => some (rows31 min m)
  | 0x40 => some (rows40 min m)
  | 0x41 => some (rows41 min m)
  | 0x42 => some (rows42 min m)
  | 0x43 => some (rows43 min m)
  | 0x44 => some (rows44 min m)
  | 0x45 => some (rows45 min m)
  | 0x46 => some (rows46 min m)
  | 0x47 => some (rows47 min m)
  | 0x48 => some (rows48 min m)
  | 0x49 => some (rows49 min m)
  | 0x60 => some (rows60 min m)
  | 0x68 => some (rows68 min m)
  | 0x70 => some (rows70 min m)
  | 0x71 => some (rows71 min m)
  | 0x72 => some (rows72 min m)
  | 0x78 => some (rows78 min m)
  | _ => none

/-- Whether a major opcode's guard reads the q registers (R65). The other groups of R65 read the p registers, and so, in the model,
do MAJ 0x80 to 0xBF and 0xC0, for which R65 names neither (DESIGN CHOICE, log entry 91). -/
def qGuarded (maj : BitVec 8) : Bool :=
  (0x40 ≤ maj.toNat && maj.toNat ≤ 0x49) || maj = 0x60#8 || (0x70 ≤ maj.toNat && maj.toNat ≤ 0x72)

/-- The instruction a 128-bit word is (Tables 1, 4 and 5). -/
def decode (w : Code) : Except DecodeError Instr :=
  let maj := w.extractLsb' 120 8
  let min := w.extractLsb' 112 8
  let h := headOf w
  let rest := w.extractLsb' 0 80
  match rowOf maj.toNat min.toNat (w.extractLsb' 33 11) with
  | some (some (some (xmask, mk))) =>
    match opsOf w xmask with
    | some o => .ok (mk h o)
    | none => .error (.badField h maj)
  | some (some none) => .error (.badField h maj)
  | some none =>
    if maj = 0x03#8 ∧ min = 0x05#8 then .ok (.fan h rest) else .error (.unassignedMinor h maj)
  | none =>
    if maj = 0xFF#8 then .ok (.portableBlockHeader h min rest)
    else if maj = 0xC0#8 then .ok (.pfi h min rest)
    else if 0xC1 ≤ maj.toNat ∧ maj.toNat ≤ 0xDF then .ok (.hnt h maj min rest)
    else if 0x80 ≤ maj.toNat ∧ maj.toNat ≤ 0xBF then .ok (.reservedMajorOpcode h maj min rest)
    else .ok (.illegalMajorOpcode h maj min rest)

/-- The C field, with L in bit 32 (R62). -/
def encodeThird : Third → BitVec 1 × BitVec 32
  | .lit w => (1#1, w)
  | .sel s x => (0#1, encodeSel s ++ x)

/-- The bits [119:80] of a word from MIN and the head. -/
def encodeHead (h : Head) : BitVec 32 := h.pa ++ h.pb ++ h.pc ++ h.tt ++ h.idle

/-- A word from its fields (Table 1). -/
def word (maj min : BitVec 8) (m : BitVec 11) (h : Head) (o : Ops) : Code :=
  maj ++ min ++ encodeHead h ++ encodeSel o.d ++ encodeSel o.a ++ encodeSel o.b ++ m
    ++ (encodeThird o.c).1 ++ (encodeThird o.c).2

/-- A word whose bits [79:0] are given whole. -/
def rawWord (maj min : BitVec 8) (h : Head) (rest : BitVec 80) : Code := maj ++ min ++ encodeHead h ++ rest

/-- The bits of M[11:1] that hold the common modifiers (Table 3). -/
def vbits (m : VMod) : BitVec 11 := bit m.x ++ m.ty ++ bit m.ftz ++ m.rm ++ bit m.z

/-- The word of an instruction; a step has none. -/
def encode : Instr → Option Code
  | .nop h o => some (word 0x00 0x00 0#11 h o)
  | .wait h o => some (word 0x00 0x01 0#11 h o)
  | .halt h o => some (word 0x00 0x02 0#11 h o)
  | .btgt h o fn => some (word 0x01 0x00 (0#10 ++ bit fn) h o)
  | .br h o => some (word 0x01 0x01 0#11 h o)
  | .call h o => some (word 0x01 0x02 0#11 h o)
  | .ret h o => some (word 0x01 0x03 0#11 h o)
  | .rdv h o bay step => some (word 0x01 0x04 (0#9 ++ bit step ++ bit bay) h o)
  | .safe h o => some (word 0x01 0x05 0#11 h o)
  | .holdTok h o => some (word 0x01 0x06 0#11 h o)
  | .holdSem h o => some (word 0x01 0x06 1#11 h o)
  | .holdBc h o => some (word 0x01 0x06 2#11 h o)
  | .holdStep h o => some (word 0x01 0x06 3#11 h o)
  | .holdCol h o => some (word 0x01 0x06 4#11 h o)
  | .trap h o => some (word 0x01 0x07 0#11 h o)
  | .sysc h o => some (word 0x01 0x08 0#11 h o)
  | .lpset h o => some (word 0x02 0x00 0#11 h o)
  | .lpend h o => some (word 0x02 0x01 0#11 h o)
  | .lndef h o => some (word 0x02 0x02 0#11 h o)
  | .lngo h o => some (word 0x02 0x03 0#11 h o)
  | .lnnext h o => some (word 0x02 0x04 0#11 h o)
  | .mov h o => some (word 0x03 0x00 0#11 h o)
  | .movi h o u hi => some (word 0x03 0x01 (0#9 ++ bit hi ++ bit u) h o)
  | .srd h o => some (word 0x03 0x02 0#11 h o)
  | .swr h o => some (word 0x03 0x03 0#11 h o)
  | .eret h o => some (word 0x03 0x04 0#11 h o)
  | .add h o => some (word 0x04 0x00 0#11 h o)
  | .sub h o => some (word 0x04 0x01 0#11 h o)
  | .and h o => some (word 0x04 0x02 0#11 h o)
  | .or h o => some (word 0x04 0x03 0#11 h o)
  | .xor h o => some (word 0x04 0x04 0#11 h o)
  | .andn h o => some (word 0x04 0x05 0#11 h o)
  | .shl h o => some (word 0x04 0x06 0#11 h o)
  | .shr h o => some (word 0x04 0x07 0#11 h o)
  | .sar h o => some (word 0x04 0x08 0#11 h o)
  | .min h o => some (word 0x04 0x09 0#11 h o)
  | .max h o => some (word 0x04 0x0a 0#11 h o)
  | .minu h o => some (word 0x04 0x0b 0#11 h o)
  | .maxu h o => some (word 0x04 0x0c 0#11 h o)
  | .sel h o => some (word 0x04 0x0d 0#11 h o)
  | .mul h o => some (word 0x05 0x00 0#11 h o)
  | .mulh h o u => some (word 0x05 0x01 (0#10 ++ bit u) h o)
  | .div h o u => some (word 0x05 0x02 (0#10 ++ bit u) h o)
  | .rem h o u => some (word 0x05 0x03 (0#10 ++ bit u) h o)
  | .clz h o => some (word 0x05 0x04 0#11 h o)
  | .popc h o => some (word 0x05 0x05 0#11 h o)
  | .ext h o sx => some (word 0x05 0x06 (0#10 ++ bit sx) h o)
  | .ins h o => some (word 0x05 0x07 0#11 h o)
  | .cmp h o pe cond mode => some (word 0x06 0x00 (0#1 ++ mode ++ cond ++ pe) h o)
  | .pset h o pe => some (word 0x06 0x01 (0#7 ++ pe) h o)
  | .pbc h o strm neg => some (word 0x06 0x02 (0#6 ++ bit neg ++ strm) h o)
  | .semw h o => some (word 0x07 0x00 0#11 h o)
  | .sems h o tok kt => some (word 0x07 0x01 (0#4 ++ bit tok ++ kt) h o)
  | .mtxl h o => some (word 0x07 0x02 0#11 h o)
  | .mtxu h o tok kt => some (word 0x07 0x03 (0#4 ++ bit tok ++ kt) h o)
  | .ldl h o g w sx => some (word 0x20 0x00 (0#5 ++ bit sx ++ w ++ g) h o)
  | .stl h o g w => some (word 0x20 0x01 (0#6 ++ w ++ g) h o)
  | .brd h o g chk => some (word 0x21 0x00 (0#7 ++ bit chk ++ g) h o)
  | .bwr h o g => some (word 0x21 0x01 (0#8 ++ g) h o)
  | .brds h o g w sx => some (word 0x21 0x02 (0#5 ++ bit sx ++ w ++ g) h o)
  | .bgth h o g chk => some (word 0x21 0x03 (0#7 ++ bit chk ++ g) h o)
  | .bsct h o g ty => some (word 0x21 0x04 (0#3 ++ ty ++ g) h o)
  | .bfill h o g ty => some (word 0x21 0x05 (0#3 ++ ty ++ g) h o)
  | .bchk h o g => some (word 0x21 0x06 (0#8 ++ g) h o)
  | .batm h o g ty => some (word 0x22 0x00 (0#3 ++ ty ++ g) h o)
  | .gld h o kd g => some (word 0x28 0x00 (0#2 ++ g ++ kd) h o)
  | .gst h o kd g => some (word 0x28 0x01 (0#2 ++ g ++ kd) h o)
  | .gcpy h o kd => some (word 0x28 0x02 (0#5 ++ kd) h o)
  | .gpf h o kd => some (word 0x28 0x03 (0#5 ++ kd) h o)
  | .ginv h o kd => some (word 0x28 0x04 (0#5 ++ kd) h o)
  | .gwb h o kd => some (word 0x28 0x05 (0#5 ++ kd) h o)
  | .ggth h o kd g => some (word 0x29 0x00 (0#2 ++ g ++ kd) h o)
  | .gsct h o kd g => some (word 0x29 0x01 (0#2 ++ g ++ kd) h o)
  | .gatm h o kd g ret => some (word 0x2a 0x00 (0#1 ++ bit ret ++ g ++ kd) h o)
  | .glev h o kd => some (word 0x2b 0x00 (0#5 ++ kd) h o)
  | .acq h o kd scope => some (word 0x30 0x00 (0#1 ++ scope ++ kd) h o)
  | .rel h o kd scope => some (word 0x30 0x01 (0#1 ++ scope ++ kd) h o)
  | .fence h o kd scope => some (word 0x30 0x02 (0#1 ++ scope ++ kd) h o)
  | .bind h o => some (word 0x31 0x00 0#11 h o)
  | .st64 h o => some (word 0x31 0x01 0#11 h o)
  | .waita h o cond => some (word 0x31 0x02 (0#8 ++ cond) h o)
  | .vadd h o m => some (word 0x40 0x00 (vbits m) h o)
  | .vsub h o m => some (word 0x40 0x01 (vbits m) h o)
  | .vmul h o m => some (word 0x40 0x02 (vbits m) h o)
  | .vfma h o m => some (word 0x40 0x03 (vbits m) h o)
  | .vfms h o m => some (word 0x40 0x04 (vbits m) h o)
  | .vneg h o m => some (word 0x40 0x05 (vbits m) h o)
  | .vabs h o m => some (word 0x40 0x06 (vbits m) h o)
  | .vmin h o m => some (word 0x41 0x00 (vbits m) h o)
  | .vmax h o m => some (word 0x41 0x01 (vbits m) h o)
  | .vminn h o m => some (word 0x41 0x02 (vbits m) h o)
  | .vmaxn h o m => some (word 0x41 0x03 (vbits m) h o)
  | .vmaxi h o m => some (word 0x41 0x04 (vbits m) h o)
  | .vmini h o m => some (word 0x41 0x05 (vbits m) h o)
  | .vcmp h o m => some (word 0x41 0x06 (vbits m) h o)
  | .vsel h o m => some (word 0x41 0x07 (vbits m) h o)
  | .vcvt h o m => some (word 0x42 0x00 (vbits m) h o)
  | .vscl h o m => some (word 0x42 0x01 (vbits m) h o)
  | .vpack h o m => some (word 0x42 0x02 (vbits m) h o)
  | .vunpk h o m => some (word 0x42 0x03 (vbits m) h o)
  | .vtag h o m => some (word 0x42 0x04 (vbits m) h o)
  | .viadd h o m => some (word 0x43 0x00 (vbits m) h o)
  | .visub h o m => some (word 0x43 0x01 (vbits m) h o)
  | .vimul h o m => some (word 0x43 0x02 (vbits m) h o)
  | .vand h o m => some (word 0x43 0x03 (vbits m) h o)
  | .vor h o m => some (word 0x43 0x04 (vbits m) h o)
  | .vxor h o m => some (word 0x43 0x05 (vbits m) h o)
  | .vnot h o m => some (word 0x43 0x06 (vbits m) h o)
  | .vshl h o m => some (word 0x43 0x07 (vbits m) h o)
  | .vshr h o m => some (word 0x43 0x08 (vbits m) h o)
  | .vsar h o m => some (word 0x43 0x09 (vbits m) h o)
  | .vdot h o m => some (word 0x44 0x00 (vbits m) h o)
  | .vmov h o m => some (word 0x45 0x00 (vbits m) h o)
  | .vlit h o m => some (word 0x45 0x01 (vbits m) h o)
  | .vbcst h o m => some (word 0x45 0x02 (vbits m) h o)
  | .vperm h o m => some (word 0x45 0x03 (vbits m) h o)
  | .vshf h o m => some (word 0x45 0x04 (vbits m) h o)
  | .vred h o m => some (word 0x46 0x00 (vbits m) h o)
  | .vscan h o m => some (word 0x46 0x01 (vbits m) h o)
  | .vcmpt h o m => some (word 0x46 0x02 (vbits m) h o)
  | .vany h o => some (word 0x47 0x00 0#11 h o)
  | .vall h o => some (word 0x47 0x01 0#11 h o)
  | .vpopc h o ty => some (word 0x47 0x02 (0#1 ++ ty ++ 0#5) h o)
  | .qsetLen h o z ty => some (word 0x47 0x03 (0#1 ++ ty ++ 0#1 ++ 0#3 ++ bit z) h o)
  | .qsetBc h o z => some (word 0x47 0x03 (0#7 ++ 1#3 ++ bit z) h o)
  | .qsetFn h o z => some (word 0x47 0x03 (0#7 ++ 2#3 ++ bit z) h o)
  | .qsetCopy h o z => some (word 0x47 0x03 (0#7 ++ 3#3 ++ bit z) h o)
  | .vrng h o m => some (word 0x48 0x00 (vbits m) h o)
  | .vhsh h o m => some (word 0x48 0x01 (vbits m) h o)
  | .vatc h o m => some (word 0x49 0x00 (vbits m) h o)
  | .vatf h o m => some (word 0x49 0x01 (vbits m) h o)
  | .fexp2 h o m => some (word 0x60 0x00 (vbits m) h o)
  | .flog2 h o m => some (word 0x60 0x01 (vbits m) h o)
  | .frcp h o m => some (word 0x60 0x02 (vbits m) h o)
  | .frsq h o m => some (word 0x60 0x03 (vbits m) h o)
  | .fsqrt h o m => some (word 0x60 0x04 (vbits m) h o)
  | .fsin h o m => some (word 0x60 0x05 (vbits m) h o)
  | .fcos h o m => some (word 0x60 0x06 (vbits m) h o)
  | .ftanh h o m => some (word 0x60 0x07 (vbits m) h o)
  | .fsigm h o m => some (word 0x60 0x08 (vbits m) h o)
  | .ferf h o m => some (word 0x60 0x09 (vbits m) h o)
  | .xbmp h o slot g => some (word 0x68 0x00 (0#7 ++ bit slot ++ g) h o)
  | .xrle h o slot g => some (word 0x68 0x01 (0#7 ++ bit slot ++ g) h o)
  | .xcsr h o slot g => some (word 0x68 0x02 (0#7 ++ bit slot ++ g) h o)
  | .xidx h o slot g ty => some (word 0x68 0x03 (0#1 ++ ty ++ 0#1 ++ bit slot ++ g) h o)
  | .xrate h o => some (word 0x68 0x04 0#11 h o)
  | .xoff h o strict => some (word 0x68 0x05 (0#10 ++ bit strict) h o)
  | .xend h o => some (word 0x68 0x06 0#11 h o)
  | .xcnt h o => some (word 0x68 0x07 0#11 h o)
  | .mzero h o => some (word 0x70 0x00 0#11 h o)
  | .manc h o => some (word 0x70 0x01 0#11 h o)
  | .mldb h o m => some (word 0x70 0x02 (vbits m) h o)
  | .mma h o m => some (word 0x71 0x00 (vbits m) h o)
  | .mmas h o m => some (word 0x71 0x01 (vbits m) h o)
  | .mmat h o m => some (word 0x71 0x02 (vbits m) h o)
  | .mrd h o m => some (word 0x72 0x00 (vbits m) h o)
  | .mwr h o m => some (word 0x72 0x01 (vbits m) h o)
  | .macc h o m => some (word 0x72 0x02 (vbits m) h o)
  | .xsnd h o => some (word 0x78 0x00 0#11 h o)
  | .xrcv h o => some (word 0x78 0x01 0#11 h o)
  | .fan h rest => some (rawWord 0x03 0x05 h rest)
  | .pfi h min rest => some (rawWord 0xC0 min h rest)
  | .hnt h maj min rest => some (rawWord maj min h rest)
  | .reservedMajorOpcode h maj min rest => some (rawWord maj min h rest)
  | .illegalMajorOpcode h maj min rest => some (rawWord maj min h rest)
  | .portableBlockHeader h min rest => some (rawWord 0xFF min h rest)
  | _ => none

/-- The instruction of a table row's bits. The opcode table gives its rows no bits of their own, and every instruction
word is 128 bits (R62), so bit 0 of `w` is bit 0 of the word whatever `nbits` is. -/
def decodeTableWord (_nbits w : Nat) : Option Instr := (decode (BitVec.ofNat 128 w)).toOption

end Sys2Proof
end

