-- ==== Sys2Proof/Config.lean ====
section
/-! DEFINITION. What the manual leaves to the implementation or gives by reference only. A constant with no body is
free: nothing can be proved of its value. `State.free`, a counter each use advances, is the argument that makes each use
a value of its own. -/

namespace Sys2Proof.Config

/-- Byte `j` of the signature of attestation report `c`: Falcon-1024 over a SHAKE256 digest, which the manual gives by
reference only (19_boundaries R407). Log entry 14. -/
opaque attestationByte : Nat → Nat → Byte

/-- Byte `j` of the SHAKE256 digest of an image's header and body (R404, R407). Log entry 14. -/
opaque imageDigest : FlashImage → Nat → Byte

/-- Byte `j` of the digest of the identity public key, which the device derives at boot with the helper data of its
configuration image (R407). Log entry 14. -/
opaque keyDigest : List Byte → Nat → Byte

/-- Reading `i` of the power controller at its tick `c` (R399 to R402): measured, never stated. Log entry 13. -/
opaque measured : Nat → Nat → Nat

/-- The delay in ns that a path-delay exchange or a PTP message measures (19_boundaries R396, R397): measured, never
stated. Log entry 13. -/
opaque pathDelay : Nat → Nat

/-- A word the manual leaves open. Log entry 13. -/
opaque freeWord : Nat → BitVec 64

end Sys2Proof.Config
end

