-- ==== Sys2Proof/Machine/Form.lean ====
section
/-! DEFINITION. The causes of 03_encoding Table 6 that an active word's own bits decide (R63, R67, R69, R70, R74, R75):
operand classes, literals, element types, immediates and modifiers, from the form tables of each chapter. -/

namespace Sys2Proof.Machine

/-- The width in bits of an element of format `f` (04_numbers Table 1). -/
def elemWidth (f : BitVec 5) : Nat :=
  match f.toNat with
  | 1 | 5 | 8 | 9 | 15 | 19 | 20 | 21 | 22 => 8
  | 2 | 6 | 10 | 11 => 16
  | 3 | 7 | 12 => 32
  | 4 | 13 | 24 | 25 => 64
  | 14 | 16 | 17 | 18 => 4
  | 23 => 128
  | _ => 4096

/-- The lanes per row of format `f` (04_numbers Table 1). -/
def lanes (f : BitVec 5) : Nat := 4096 / elemWidth f

/-- Formats that carry block scales: MXFP4, MXFP8 and BFP2 to BFP8 (04_numbers Table 1). -/
def blockScaled (f : BitVec 5) : Bool := 14 ≤ f.toNat && f.toNat ≤ 22

/-- A selector's class, or what a class 0xF value names (Table 2). -/
inductive Cl where
  | a | v | lane | p | cr | imm | acc | b | none | lit
  deriving DecidableEq, Repr

/-- What of a selector fits one field: `allow` are its classes; the literal raises 0x006 instead of 0x005 where the
field is unused or the instruction forbids literals (R63, R69). -/
def fieldCauses (allow : List Cl) (forbid : Bool) (s : Sel) : List (BitVec 9) :=
  let need (c : Cl) : List (BitVec 9) := if allow.contains c then [] else [0x005]
  match s with
  | .a _ => need .a
  | .v _ => need .v
  | .lane _ _ => need .lane
  | .p _ => need .p
  | .cr _ => need .cr
  | .imm _ => need .imm
  | .acc _ => need .acc
  | .b _ => need .b
  | .none => need .none
  | .lit => if allow.contains .lit then [] else if forbid || allow == [.none] then [0x006] else [0x005]
  | .fed => [0x00C]

/-- The literal's rules (R69, R171): exactly the fields that hold 0xF01 go with L = 1, and at most one does. -/
def literalCauses (o : Ops) (forbid : Bool) : List (BitVec 9) :=
  let n := ([o.d, o.a, o.b].filter (· == .lit)).length
  match o.c with
  | .lit _ => if forbid || n != 1 then [0x006] else []
  | .sel s _ => if s == .lit || n != 0 then [0x006] else []

/-- The operand fields of a word against the classes its row allows in D, A, B and C; a word with L = 1 has no C. Where the
row needs a C that L = 1 takes away (VFMA, VFMS, VSEL, VSHF, VHSH, PSET, QSET.fn, and EXT and INS with the literal in A)
and literals are not forbidden, the spec names no cause: DESIGN CHOICE, 0x005 (log entry 62). -/
def opsCauses (o : Ops) (d a b c : List Cl) (forbid : Bool := false) : List (BitVec 9) :=
  fieldCauses d forbid o.d ++ fieldCauses a forbid o.a ++ fieldCauses b forbid o.b
    ++ (match o.c with
        | .lit _ => if c.contains .none then [] else if forbid then [0x006] else [0x005]
        | .sel s _ => fieldCauses c forbid s)
    ++ literalCauses o forbid

/-- Cause 0x004 unless `ok`. -/
def mustBe (ok : Bool) : List (BitVec 9) := if ok then [] else [0x004]

/-- Cause 0x00B unless `ok`. -/
def typeOk (ok : Bool) : List (BitVec 9) := if ok then [] else [0x00B]

/-- An immediate, when the field holds one, lies in `lo` to `hi`. -/
def immIn (s : Sel) (lo hi : Int) : List (BitVec 9) :=
  match s with
  | .imm v => mustBe (decide (lo ≤ v.toInt ∧ v.toInt ≤ hi))
  | _ => []

/-- The literal of a word, when it has one. -/
def litOf (c : Third) : Option (BitVec 32) :=
  match c with
  | .lit w => some w
  | .sel _ _ => none

/-- The literal, when the field `s` holds it, satisfies `ok`. -/
def litIn (s : Sel) (c : Third) (ok : BitVec 32 → Bool) : List (BitVec 9) :=
  match s, c with
  | .lit, .lit w => mustBe (ok w)
  | _, _ => []

/-- The extra modifiers [19:0]; zero when L = 1 (R63). -/
def extra (c : Third) : BitVec 20 :=
  match c with
  | .lit _ => 0
  | .sel _ x => x

/-- The causes of the extra modifiers of a word; with L = 1 it has none to judge (R63). -/
def ofExtra (c : Third) (p : BitVec 20 → List (BitVec 9)) : List (BitVec 9) :=
  match c with
  | .lit _ => []
  | .sel _ x => p x

/-- The C selector; none when L = 1. -/
def cSel (c : Third) : Sel :=
  match c with
  | .lit _ => .none
  | .sel s _ => s

/-- Consumed tokens (08_memories R244): count in [19:18], names below; names beyond the count are zero. -/
def tokCauses (c : Third) : List (BitVec 9) :=
  let x := extra c
  let n := (x.extractLsb' 18 2).toNat
  mustBe ((1 ≤ n || x.extractLsb' 0 6 == 0#6) && (2 ≤ n || x.extractLsb' 6 6 == 0#6)
    && (3 ≤ n || x.extractLsb' 12 6 == 0#6))

/-- The consumed token names (R244). -/
def consumed (c : Third) : List Nat :=
  let x := extra c
  ([(x.extractLsb' 0 6).toNat, (x.extractLsb' 6 6).toNat, (x.extractLsb' 12 6).toNat]).take
    (x.extractLsb' 18 2).toNat

/-- `f` lies in `lo` to `hi`. -/
def tagIn (f : BitVec 5) (lo hi : Nat) : Bool := lo ≤ f.toNat && f.toNat ≤ hi

/-- Types 1 to 25 (R100). -/
def isTag (f : BitVec 5) : Bool := tagIn f 1 25

/-- Integer types. -/
def isInt (f : BitVec 5) : Bool := tagIn f 1 7

/-- IEEE-like floating types, tags 8 to 13. -/
def isFp (f : BitVec 5) : Bool := tagIn f 8 13

/-- Immediates (0x005) and literals (0x006) that would supply element values of ACC96, KEY64, TRIPLE, MX or BFP
(06_vector_rows R171). -/
def elemValue (f : BitVec 5) (s : Sel) : List (BitVec 9) :=
  if tagIn f 14 25 then
    match s with
    | .imm _ => [0x005]
    | .lit => [0x006]
    | _ => []
  else []

/-- At most two row sources (R172). -/
def rowSources (ss : List Sel) : List (BitVec 9) :=
  let n := (ss.filter (fun s => match s with | .v _ => true | _ => false)).length
  if n ≤ 2 then [] else [0x005]

/-- A row or a lane (R171). -/
def vd : List Cl := [.v, .lane]
/-- An element operand of the vector groups (R171). -/
def vs : List Cl := [.v, .lane, .imm, .lit]
/-- An integer operand of the scalar groups (05_control_registers R151). -/
def ail : List Cl := [.a, .imm, .lit]
/-- An unused field. -/
def no : List Cl := [.none]
/-- The displacement of a bank operand (08_memories R232). -/
def disp : List Cl := [.imm, .lit, .none]

/-- Words of the 0x04 group of Table 11 with two sources. -/
def intForm (o : Ops) : List (BitVec 9) := opsCauses o [.a] ail ail no

/-- Two-source vector words of type `f`. -/
def vec2 (o : Ops) (m : VMod) (ok : Bool) : List (BitVec 9) :=
  opsCauses o vd vs vs no ++ typeOk ok ++ elemValue m.ty o.a ++ elemValue m.ty o.b

/-- One-source vector words of type `f`. -/
def vec1 (o : Ops) (m : VMod) (ok : Bool) : List (BitVec 9) :=
  opsCauses o vd vs no no ++ typeOk ok ++ elemValue m.ty o.a

/-- The operations of VRED and VSCAN and their types (06_vector_rows Table 11). -/
def redCauses (op : BitVec 4) (f : BitVec 5) : List (BitVec 9) :=
  let n := op.toNat
  mustBe (if n = 0 then tagIn f 1 13 || f == 23#5
    else if n ≤ 4 then tagIn f 1 13
    else if n ≤ 6 then f == 24#5
    else if n ≤ 9 then isInt f else false)

/-- The operations of BATM and their types (08_memories Table 6). -/
def batmCauses (op : BitVec 4) (f : BitVec 5) : List (BitVec 9) :=
  let n := op.toNat
  if n < 8 then
    typeOk (if n = 0 then tagIn f 1 13 || f == 23#5
      else if n ≤ 2 then tagIn f 1 13
      else if n ≤ 4 then f == 24#5
      else isInt f)
  else [0x004]

/-- The operation code of GATM (08_memories Table 11): op in [3:0], format in [6:4]. -/
def gatmCauses (s : Sel) : List (BitVec 9) :=
  match s with
  | .imm v =>
    let op := (v.extractLsb' 0 4).toNat
    let fmt := (v.extractLsb' 4 3).toNat
    if v.getLsbD 7 || 6 ≤ fmt || 10 ≤ op then [0x004]
    else typeOk (match op with
      | 0 => fmt ≤ 2
      | 1 => fmt == 3
      | 2 => fmt == 4
      | 3 | 4 => fmt == 5
      | 5 | 6 | 7 => fmt ≤ 2
      | _ => fmt == 1)
  | _ => []

/-- The matrix operand formats: tags 8 to 12 and 14 to 22 (07_accumulators R211, R214). -/
def mxType (f : BitVec 5) : Bool := tagIn f 8 12 || tagIn f 14 22

/-- The A operand of MMA, MMAS and MMAT names rows all static or all rotating (R214); a type that is no format (04_numbers
R100) has no number of rows. -/
def aRows (s : Sel) (f : BitVec 5) : List (BitVec 9) :=
  match s with
  | .v n =>
    let r := 1024 / lanes f
    mustBe (!isTag f || (if n.toNat < 128 then n.toNat + r ≤ 128 else n.toNat + r ≤ 256))
  | _ => []

/-- A matrix word on an accumulator tile with an A operand. -/
def mmaForm (o : Ops) (m : VMod) (ok : Bool) : List (BitVec 9) :=
  opsCauses o [.acc] vd no no ++ typeOk ok ++ aRows o.a m.ty

/-- row0 of MRD, MWR and MACC: 0 to 31 and a multiple of the tile rows that the format, when it is one, covers (R219). -/
def rowZero (s : Sel) (f : BitVec 5) : List (BitVec 9) :=
  match s with
  | .imm v =>
    let g := lanes f / 32
    mustBe (decide (0 ≤ v.toInt ∧ v.toInt ≤ 31) && (!isTag f || v.toNat % g == 0))
  | _ => []

/-- A gateway word: literals forbidden, tokens well formed (08_memories R246). -/
def gwForm (o : Ops) (d a b c : List Cl) : List (BitVec 9) := opsCauses o d a b c true ++ tokCauses o.c

/-- `n` of a gateway local: one row, or 0 to 64 slots (R246). -/
def localN (d b : Sel) : List (BitVec 9) :=
  match d with
  | .v _ => immIn b 1 1
  | _ => immIn b 0 64

/-- An SX decode word (10_queues R282). -/
def sxForm (o : Ops) (slot : Bool) (g : BitVec 3) (b : List Cl) : List (BitVec 9) :=
  if slot then gwForm o [.a] ail b no else opsCauses o vd ail b no ++ mustBe (g == 0#3)

/-- The group field of a local operand, or of a slot source: zero when it names a row (R246; 10_queues R282). -/
def localG (d : Sel) (g : BitVec 3) : List (BitVec 9) :=
  match d with
  | .v _ => mustBe (g == 0#3)
  | _ => []

/-- The largest n of XIDX: the lanes of its format; no bound where the type is no format (10_queues R282). -/
def idxMost (f : BitVec 5) : Nat := if isTag f then lanes f else 2 ^ 64

/-- A special-function word (06_vector_rows R199). -/
def sfForm (o : Ops) (m : VMod) : List (BitVec 9) := vec1 o m (tagIn m.ty 10 12)

/-- The causes an active word's own bits raise; the step constructors and the hint, reserved and illegal words, whose
fields are not checked, have none. -/
def formCauses : Instr → List (BitVec 9)
  | .nop _ o => opsCauses o no no no no
  | .wait _ o => opsCauses o [.imm, .lit] no no no ++ immIn o.d 0 127
  | .halt _ o => opsCauses o no no no no
  | .btgt _ o fn => opsCauses o [.b] [.a, .lit] no no
      ++ (if fn then litIn o.a o.c (fun w => w.extractLsb' 24 8 == 0#8) else [])
  | .br _ o => opsCauses o [.b] no no no
  | .call _ o => opsCauses o [.b] no no no
  | .ret _ o => opsCauses o [.b] no no no
  | .rdv _ o bay step => opsCauses o no no no no ++ mustBe (bay || !step)
  | .safe _ o => opsCauses o no no no no
  | .holdTok _ o => opsCauses o ail no no no
  | .holdSem _ o => opsCauses o [.imm] ail no no ++ immIn o.d 0 15
  | .holdBc _ o => opsCauses o [.imm] [.a, .lit] no no ++ immIn o.d 0 15
  | .holdStep _ o => opsCauses o no no no no
  | .holdCol _ o => opsCauses o [.a, .lit] no no no ++ litIn o.d o.c (fun w => w.toNat ≤ 1023)
  | .trap _ o => opsCauses o [.imm] no no no ++ immIn o.d 0 15
  | .sysc _ o => opsCauses o [.imm] [.a] no no ++ immIn o.d 0 127
  | .lpset _ o => opsCauses o [.b] ail [.imm] no ++ immIn o.a 0 127 ++ immIn o.b 1 8
  | .lpend _ o => opsCauses o [.b] no no no
  | .lndef _ o => opsCauses o [.a] [.imm] [.imm, .lit] no ++ immIn o.a 1 4 ++ immIn o.b 0 127
      ++ litIn o.b o.c (fun w => w.toNat ≤ 255)
  | .lngo _ o => opsCauses o [.p] [.b] no no
  | .lnnext _ o => opsCauses o [.p] [.b] no no
  | .mov _ o => opsCauses o [.a, .b, .p] [.a, .b, .p] no no
      ++ (match o.d, o.a with
          | .b _, .p _ => [0x005]
          | .p _, .b _ => [0x005]
          | _, _ => [])
  | .movi _ o u hi => opsCauses o [.a] [.imm, .lit] no no ++ mustBe (!(u && hi))
  | .srd _ o => opsCauses o [.a] [.cr] no no
  | .swr _ o => opsCauses o [.cr] ail no no
  | .eret _ o => opsCauses o no no no no
  | .fan _ _ => []
  | .add _ o => intForm o
  | .sub _ o => intForm o
  | .and _ o => intForm o
  | .or _ o => intForm o
  | .xor _ o => intForm o
  | .andn _ o => intForm o
  | .shl _ o => intForm o
  | .shr _ o => intForm o
  | .sar _ o => intForm o
  | .min _ o => intForm o
  | .max _ o => intForm o
  | .minu _ o => intForm o
  | .maxu _ o => intForm o
  | .sel _ o => opsCauses o [.a] ail ail [.p] true
  | .mul _ o => intForm o
  | .mulh _ o _ => intForm o
  | .div _ o _ => intForm o
  | .rem _ o _ => intForm o
  | .clz _ o => opsCauses o [.a] ail no no
  | .popc _ o => opsCauses o [.a] ail no no
  | .ext _ o _ => opsCauses o [.a] ail [.imm] [.imm] ++ posLen o
  | .ins _ o => opsCauses o [.a] ail [.imm] [.imm] ++ posLen o
  | .cmp _ o pe cond mode => opsCauses o [.p] ail ail no ++ mustBe (cond.toNat < 12) ++ mustBe (mode != 3#2)
      ++ pair o.d pe
  | .pset _ o pe => opsCauses o [.p] [.p] [.p] [.imm] ++ immIn (cSel o.c) 0 15 ++ pair o.d pe
  | .pbc _ o strm _ => opsCauses o [.p] [.p] no no ++ mustBe (strm.toNat < 9)
  | .semw _ o => opsCauses o [.imm] ail no no ++ immIn o.d 0 15 ++ immIn o.a 0 127
  | .sems _ o tok kt => opsCauses o [.imm] ail no no ++ immIn o.d 0 15 ++ immIn o.a 0 127
      ++ mustBe (tok || kt == 0#6)
  | .mtxl _ o => opsCauses o [.imm] no no no ++ immIn o.d 0 7
  | .mtxu _ o tok kt => opsCauses o [.imm] no no no ++ immIn o.d 0 7 ++ mustBe (tok || kt == 0#6)
  | .ldl _ o _ _ _ => opsCauses o [.a] [.a] disp no
  | .stl _ o _ _ => opsCauses o [.a] [.a] disp no
  | .brd _ o _ chk => opsCauses o vd [.a] disp (if chk then [.a, .imm] else no) chk
      ++ (if chk then immIn (cSel o.c) 0 127 else [])
  | .bwr _ o _ => opsCauses o vd [.a] disp no
  | .brds _ o _ _ _ => opsCauses o [.a] [.a] disp no
  | .bgth _ o _ chk => opsCauses o vd [.a] disp (if chk then [.a, .imm] else no) chk
      ++ (if chk then immIn (cSel o.c) 0 127 else [])
  | .bsct _ o _ ty => opsCauses o vd [.a] disp [.v] true
      ++ typeOk (tagIn ty 2 4 || tagIn ty 6 7 || tagIn ty 10 13 || ty == 24#5)
  | .bfill _ o _ ty => opsCauses o [.imm] [.a] disp [.a, .imm] true ++ immIn o.d 1 64
      ++ typeOk (tagIn ty 1 13 || ty == 24#5)
  | .bchk _ o _ => opsCauses o [.a, .imm] [.a] disp no ++ immIn o.d 0 127
  | .batm _ o _ ty => opsCauses o vd [.a] disp no true ++ ofExtra o.c (fun x => batmCauses (x.extractLsb' 0 4) ty)
  | .gld _ o _ g => gwForm o [.v, .a] [.a] [.a, .imm] [.a] ++ localN o.d o.b ++ localG o.d g
  | .gst _ o _ g => gwForm o [.v, .a] [.a] [.a, .imm] [.imm] ++ localN o.d o.b ++ localG o.d g ++ fmtImm (cSel o.c)
  | .gcpy _ o _ => gwForm o [.a] [.a] [.a, .imm] no ++ immIn o.b 0 127
  | .gpf _ o _ => gwForm o [.a] [.a, .imm] [.imm] no ++ immIn o.a 0 127 ++ immIn o.b 1 2
  | .ginv _ o _ => gwForm o [.a] [.a, .imm] no no ++ immIn o.a 0 127
  | .gwb _ o _ => gwForm o [.a] [.a, .imm] no no ++ immIn o.a 0 127
  | .ggth _ o _ g => gwForm o [.v, .a] [.a] [.a] [.a, .imm] ++ localG o.d g
  | .gsct _ o _ g => gwForm o [.v, .a] [.a] [.a] [.v] ++ localG o.d g
  | .gatm _ o _ g _ => gwForm o [.v, .a] [.a] [.a, .imm] [.imm] ++ immIn o.b 1 64 ++ localG o.d g ++ gatmCauses (cSel o.c)
  | .glev _ o _ => gwForm o [.a] [.a] no no
  | .acq _ o _ sc => gwForm o [.a] no no no ++ mustBe (sc.toNat < 9)
  | .rel _ o _ sc => gwForm o [.a] [.a, .imm] no no ++ mustBe (sc.toNat < 9)
  | .fence _ o _ sc => gwForm o no no no no ++ mustBe (sc.toNat < 9)
  | .bind _ o => opsCauses o [.a, .imm] [.a] [.a] [.a] true
  | .st64 _ o => opsCauses o [.a] [.a] no no true
      ++ (match o.a with
          | .a n => mustBe (1 ≤ n.toNat && n.toNat ≤ 24)
          | _ => [])
  | .waita _ o cond => opsCauses o [.a] ail [.a, .lit, .none] no ++ mustBe (cond != 7#3)
  | .vadd _ o m => vec2 o m (isFp m.ty)
  | .vsub _ o m => vec2 o m (isFp m.ty)
  | .vmul _ o m => vec2 o m (isFp m.ty)
  | .vfma _ o m => opsCauses o vd vs vs vs ++ typeOk (isFp m.ty) ++ rowSources [o.a, o.b, cSel o.c]
      ++ elemValue m.ty o.a ++ elemValue m.ty o.b ++ elemValue m.ty (cSel o.c)
  | .vfms _ o m => opsCauses o vd vs vs vs ++ typeOk (isFp m.ty) ++ rowSources [o.a, o.b, cSel o.c]
      ++ elemValue m.ty o.a ++ elemValue m.ty o.b ++ elemValue m.ty (cSel o.c)
  | .vneg _ o m => vec1 o m (isFp m.ty)
  | .vabs _ o m => vec1 o m (isFp m.ty)
  | .vmin _ o m => vec2 o m (tagIn m.ty 1 13)
  | .vmax _ o m => vec2 o m (tagIn m.ty 1 13)
  | .vminn _ o m => vec2 o m (tagIn m.ty 1 13)
  | .vmaxn _ o m => vec2 o m (tagIn m.ty 1 13)
  | .vmaxi _ o m => vec2 o m (m.ty == 24#5)
  | .vmini _ o m => vec2 o m (m.ty == 24#5)
  | .vcmp _ o m => opsCauses o [.p] vs vs no ++ typeOk (tagIn m.ty 1 13)
      ++ elemValue m.ty o.a ++ elemValue m.ty o.b ++ mustBe (!(isInt m.ty && 6 ≤ m.rm.toNat))
  | .vsel _ o m => opsCauses o vd vs vs [.p] ++ typeOk (tagIn m.ty 1 13 || tagIn m.ty 24 25)
      ++ elemValue m.ty o.a ++ elemValue m.ty o.b
  | .vcvt _ o m => opsCauses o vd [.v, .lane] (if m.ty == 23#5 then [.a, .imm, .none] else [.v, .lane, .none]) no true
      ++ typeOk (tagIn m.ty 1 23)
  | .vscl _ o m => opsCauses o vd vs ail no ++ typeOk (tagIn m.ty 8 22) ++ elemValue m.ty o.a
  | .vpack _ o m => opsCauses o vd vs vs no
      ++ (if m.x then typeOk (m.ty == 24#5)
          else typeOk (tagIn m.ty 1 13 || tagIn m.ty 24 25) ++ elemValue m.ty o.a ++ elemValue m.ty o.b)
  | .vunpk _ o m => opsCauses o vd vs no no
      ++ (if m.x then typeOk (m.ty == 12#5 || m.ty == 7#5) ++ elemValue 24 o.a
          else typeOk (tagIn m.ty 1 13 || tagIn m.ty 23 25) ++ elemValue m.ty o.a)
  | .vtag _ o m => opsCauses o vd [.v, .lane] no no ++ typeOk (isTag m.ty)
  | .viadd _ o m => vec2 o m (isInt m.ty)
  | .visub _ o m => vec2 o m (isInt m.ty)
  | .vimul _ o m => vec2 o m (isInt m.ty)
  | .vand _ o m => vec2 o m (tagIn m.ty 1 13 || m.ty == 24#5)
  | .vor _ o m => vec2 o m (tagIn m.ty 1 13 || m.ty == 24#5)
  | .vxor _ o m => vec2 o m (tagIn m.ty 1 13 || m.ty == 24#5)
  | .vnot _ o m => vec1 o m (tagIn m.ty 1 13 || m.ty == 24#5)
  | .vshl _ o m => vec2 o m (isInt m.ty)
  | .vshr _ o m => vec2 o m (isInt m.ty)
  | .vsar _ o m => vec2 o m (isInt m.ty)
  | .vdot _ o m => opsCauses o vd [.v, .lane, .imm] [.v, .lane, .imm] [.v, .lane, .none] true
      ++ typeOk (m.ty == 1#5 || m.ty == 2#5 || m.ty == 5#5 || m.ty == 6#5)
      ++ elemValue m.ty o.a ++ elemValue m.ty o.b
      ++ ofExtra o.c (fun x => mustBe (!isTag m.ty || (let n := lanes m.ty / 2 ^ (x.extractLsb' 0 4).toNat; 1 ≤ n && n ≤ 128)))
      ++ rowSources [o.a, o.b, cSel o.c]
  | .vmov _ o m => opsCauses o vd [.v, .lane] no no ++ typeOk (isTag m.ty)
  | .vlit _ o m => opsCauses o vd [.imm, .lit] no no
      ++ typeOk (if m.x then isInt m.ty else tagIn m.ty 1 13 || m.ty == 24#5)
      ++ (if m.ty == 24#5 then [] else elemValue m.ty o.a)
  | .vbcst _ o m =>
      (match o.a with
       | .a _ => opsCauses o vd [.a] no no
           ++ typeOk (tagIn m.ty 1 13 || m.ty == 15#5 || tagIn m.ty 19 22 || tagIn m.ty 24 25)
       | _ => opsCauses o vd [.a, .v, .lane] [.a, .imm, .lit, .none] no ++ typeOk (isTag m.ty))
  | .vperm _ o m => opsCauses o vd [.v, .lane] [.v, .lane] no
      ++ typeOk (tagIn m.ty 2 4 || tagIn m.ty 6 7 || tagIn m.ty 10 13 || tagIn m.ty 23 25)
  | .vshf _ o m => opsCauses o vd [.v, .lane] [.v, .lane] ail ++ typeOk (tagIn m.ty 1 13 || tagIn m.ty 24 25)
  | .vred _ o m => opsCauses o vd [.v, .lane] no no true ++ typeOk (isTag m.ty)
      ++ ofExtra o.c (fun x => redCauses (x.extractLsb' 0 4) m.ty)
  | .vscan _ o m => opsCauses o vd [.v, .lane] no no true ++ typeOk (isTag m.ty)
      ++ ofExtra o.c (fun x => redCauses (x.extractLsb' 0 4) m.ty)
  | .vcmpt _ o m => opsCauses o vd [.v, .lane] no no true ++ typeOk (tagIn m.ty 1 13 || tagIn m.ty 23 25)
  | .vany _ o => opsCauses o no [.p] no no
  | .vall _ o => opsCauses o no [.p] no no
  | .vpopc _ o ty => opsCauses o [.a] [.p] no no ++ typeOk (isTag ty)
  | .qsetLen _ o _ ty => opsCauses o [.p] ail no no ++ typeOk (isTag ty) ++ immIn o.a 0 127
  | .qsetBc _ o _ => opsCauses o [.p] [.a] no no
  | .qsetFn _ o _ => opsCauses o [.p] [.p] [.p] [.imm] ++ immIn (cSel o.c) 0 15
  | .qsetCopy _ o _ => opsCauses o [.p] [.p] no no
      ++ ofExtra o.c (fun x => mustBe (let k := (x.extractLsb' 0 4).toNat; 2 ≤ k && k ≤ 5))
  | .vrng _ o m => opsCauses o vd no no no ++ typeOk (m.ty == 7#5 || m.ty == 12#5)
  | .vhsh _ o m => opsCauses o vd vs vs ail ++ typeOk (m.ty == 3#5 || m.ty == 7#5)
      ++ elemValue m.ty o.a ++ elemValue m.ty o.b
  | .vatc _ o m => opsCauses o vd [.v, .lane] [.v, .lane] no ++ typeOk (m.ty == 25#5 || m.ty == 12#5)
      ++ mustBe (!(m.ty == 12#5 && m.z))
  | .vatf _ o m => opsCauses o vd [.v, .lane] no no ++ typeOk (m.ty == 12#5)
  | .fexp2 _ o m => sfForm o m
  | .flog2 _ o m => sfForm o m
  | .frcp _ o m => sfForm o m
  | .frsq _ o m => sfForm o m
  | .fsqrt _ o m => sfForm o m
  | .fsin _ o m => sfForm o m
  | .fcos _ o m => sfForm o m
  | .ftanh _ o m => sfForm o m
  | .fsigm _ o m => sfForm o m
  | .ferf _ o m => sfForm o m
  | .xbmp _ o slot g => sxForm o slot g ail ++ immIn o.b 1 4096 ++ litIn o.b o.c (fun w => 1 ≤ w.toNat && w.toNat ≤ 4096)
  | .xrle _ o slot g => sxForm o slot g ail ++ immIn o.b 1 128 ++ litIn o.b o.c (fun w => 1 ≤ w.toNat && w.toNat ≤ 128)
  | .xcsr _ o slot g => sxForm o slot g [.a]
  | .xidx _ o slot g ty => sxForm o slot g ail ++ typeOk (tagIn ty 5 7) ++ immIn o.b 1 (idxMost ty)
      ++ litIn o.b o.c (fun w => 1 ≤ w.toNat && w.toNat ≤ idxMost ty)
  | .xrate _ o => opsCauses o ail no no no ++ immIn o.d 1 16 ++ litIn o.d o.c (fun w => 1 ≤ w.toNat && w.toNat ≤ 16)
  | .xoff _ o _ => opsCauses o no no no no
  | .xend _ o => opsCauses o no no no no
  | .xcnt _ o => opsCauses o [.a] no no no
  | .mzero _ o => opsCauses o [.acc] ail no no
      ++ litIn o.a o.c (fun w => decide (-32768 ≤ w.toInt ∧ w.toInt ≤ 32767))
  | .manc _ o => opsCauses o [.acc] ail no no
      ++ litIn o.a o.c (fun w => decide (-32768 ≤ w.toInt ∧ w.toInt ≤ 32767))
  | .mldb _ o m => opsCauses o vd [.imm] no no ++ typeOk (mxType m.ty) ++ immIn o.a 0 (1024 / lanes m.ty - 1 : Nat)
  | .mma _ o m => mmaForm o m (mxType m.ty)
  | .mmas _ o m => mmaForm o m (mxType m.ty)
  | .mmat _ o m => mmaForm o m (tagIn m.ty 8 12)
  | .mrd _ o m => opsCauses o vd [.acc] [.imm] no ++ typeOk (tagIn m.ty 1 23) ++ rowZero o.b m.ty
  | .mwr _ o m => opsCauses o [.acc] vd [.imm] no ++ typeOk (tagIn m.ty 1 23) ++ rowZero o.b m.ty
  | .macc _ o m => opsCauses o [.acc] vd [.imm] no ++ typeOk (tagIn m.ty 1 23) ++ rowZero o.b m.ty
  | .xsnd _ o => opsCauses o vd [.a, .lit] no no ++ litIn o.a o.c (fun w => w.extractLsb' 16 16 == 0#16)
  | .xrcv _ o => opsCauses o vd [.a, .imm] no no ++ immIn o.a 0 15
  | _ => []
where
  /-- pos and len of EXT and INS (05_control_registers R151). -/
  posLen (o : Ops) : List (BitVec 9) :=
    immIn o.b 0 63 ++ immIn (cSel o.c) 1 64 ++ (match o.b, cSel o.c with
      | .imm p, .imm l => mustBe (decide (p.toInt + l.toInt ≤ 64))
      | _, _ => [])
  /-- A predicate pair names one predicate twice only as p0 (R152). -/
  pair (d : Sel) (pe : BitVec 4) : List (BitVec 9) :=
    match d with
    | .p n => mustBe (!(n == pe && n != 0#4))
    | _ => []
  /-- The format immediate of GST (08_memories R246). -/
  fmtImm (s : Sel) : List (BitVec 9) :=
    match s with
    | .imm v => typeOk (decide (1 ≤ v.toInt ∧ v.toInt ≤ 25))
    | _ => []

/-- The lowest of several causes (R74). -/
def lowest (cs : List (BitVec 9)) : Option (BitVec 9) :=
  cs.foldl (fun m c => match m with
    | none => some c
    | some x => some (if c.toNat < x.toNat then c else x)) none

end Sys2Proof.Machine
end

