-- ==== Sys2Proof/Machine/State.lean ====
section
/-! DEFINITION. The state of one Flaez, as plain data: every piece of state of INVENTORY.md's '## State'. -/

namespace Sys2Proof.Machine

/-- A precise, imprecise or steward cause code (15_traps R373). -/
abbrev Cause := BitVec 9

/-- The metadata of a row (06_vector_rows R164); reserved bits read zero. -/
structure RowMeta where
  tag : BitVec 5 := 0
  poison : Bool := false
  zs : Bool := false
  anchor : BitVec 16 := 0
  scales : BitVec 256 := 0
  deriving DecidableEq, Repr

/-- A row with its metadata, and the value of a lane slot or of an exchange channel (R163, R164; 10_queues R273). -/
structure Row where
  data : RowData := 0
  md : RowMeta := {}
  deriving DecidableEq, Repr

/-- A scratchpad slot (08_memories R227). `bad` marks an uncorrectable soft error in its data (R250; log entry 20). -/
structure Slot where
  data : RowData := 0
  scales : BitVec 256 := 0
  seq : BitVec 16 := 0
  fresh : Bool := false
  poison : Bool := false
  zs : Bool := false
  tag : BitVec 5 := 0
  anchor : BitVec 16 := 0
  bad : Bool := false
  deriving DecidableEq, Repr

/-- A B plane (07_accumulators R205). -/
structure Plane where
  data : BitVec 32768 := 0
  tag : BitVec 5 := 0
  scales : BitVec 256 := 0
  deriving DecidableEq, Repr

/-- What of a stream's sequence is due next (02_execution R32): the word at offset `off` of the stream's body in
function `fn` issues at `base` + its IDLE. On a steward core `off` is a byte address and `fn` is 0. -/
inductive Next where
  | halted
  | word (fn : BitVec 24) (off : Nat) (base : Nat)
  deriving DecidableEq, Repr

/-- A transfer taken at tc `at` whose target has not issued yet (05_control_registers R133). -/
structure Xfer where
  fn : BitVec 24
  off : Nat
  tc : Nat
  deriving DecidableEq, Repr

/-- The condition of a protected cycle (02_execution Table 3), with the operands read at its sample (R144). The count of a pop
takes in those of earlier streams in its tc (10_queues R280). -/
inductive Cond where
  | tok (mask : Word)
  | sem (s : BitVec 4) (c : Word)
  | semw (s : BitVec 4) (c : BitVec 32)
  | mtx (m : BitVec 3)
  | bc (j : BitVec 4) (c : Word)
  | step
  | col (id : Word)
  | pop (n : Nat)
  | resident (fn : BitVec 24)
  | watch (addr val mask : Word) (cond : BitVec 4)
  deriving DecidableEq, Repr

/-- CT's loop nest (05_control_registers R159); `n = 0` is no nest. -/
structure Nest where
  n : BitVec 8 := 0
  perm : BitVec 8 := 0
  ab : BitVec 8 := 0
  t : List (BitVec 32) := [0, 0, 0, 0]
  j : BitVec 64 := 0
  deriving DecidableEq, Repr

/-- The private state of a stream (05_control_registers R127 to R131; 06_vector_rows R167). `q` is meaningful in MX, VA,
VB and SF only. -/
structure Strm where
  a : Vector Word 32 := Vector.replicate 32 0
  b : Vector Word 8 := Vector.replicate 8 0
  p : Vector Bool 16 := Vector.replicate 16 false
  q : Vector QReg 16 := Vector.replicate 16 0
  lcnt : BitVec 40 := 0
  lbndN : BitVec 32 := 0
  lbndS : BitVec 4 := 0
  ra : BitVec 4 := 0
  rp : BitVec 3 := 0
  rv : BitVec 7 := 0
  ftm : Bool := false
  evsel : BitVec 4 := 0
  bcsel : BitVec 4 := 0
  pmsel : BitVec 6 := 0
  draw : BitVec 56 := 0
  next : Next := .halted
  xfer : Option Xfer := none
  cur : Nat × Nat := (0, 0)
  nest : Nest := {}
  deriving DecidableEq, Repr

/-- An entry of a function's liveness table (11_tables Table 6). -/
structure Live where
  off : Nat
  masks : List Word
  rows : BitVec 256
  q : Word
  planes : BitVec 2
  deriving DecidableEq, Repr

/-- What one timed write changes when it lands (02_execution R33). Register numbers are physical (R128); `k` is the
stream the register belongs to. `slotFill` is a fill that follows the write of a BSCT or BATM, with the barrier counters that it and
the fills it replaces add to (08_memories R231; 13_counters R348). -/
inductive Land where
  | a (k n : Nat) (v : Word)
  | b (k n : Nat) (v : Word)
  | p (k n : Nat) (v : Bool)
  | cr (k : Nat) (num : BitVec 8) (v : Word)
  | q (k n : Nat) (mask v : QReg)
  | row (n : Nat) (act : QReg) (z ftm ftz : Bool) (v : Row)
  | rowRaw (n : Nat) (v : Row)
  | lane (aw : Bool) (n : BitVec 3) (station : Nat) (v : Row)
  | tileRow (n : Nat) (v : Row)
  | planePart (n p : Nat) (v : Row)
  | slot (g n : Nat) (rmw : Bool) (data : RowData) (scales : BitVec 256) (tag : BitVec 5) (anchor : BitVec 16)
  | slotBytes (g ea nbytes : Nat) (v : Word)
  | slotFill (g n : Nat) (x : Slot) (bcs : List Nat)
  | unfresh (g n : Nat)
  | semAdd (n : Nat) (c : BitVec 32)
  | semSub (n : Nat) (c : BitVec 32)
  | mtxTake (n : Nat) (owner : BitVec 4)
  | mtxFree (n : Nat)
  | tokOut (k : Nat)
  | tokEmpty (k : Nat)
  | bind (e : Nat) (sync base size : Word)
  | st64 (rd : Nat) (rec : List Word)
  | xrate (r : BitVec 5)
  | xoff (strict : Bool)
  | xend
  | xcnt (k n : Nat)
  | clear (e : Live)
  | eret (pie : Bool)
  deriving DecidableEq, Repr

/-- A timed write in flight: its landing tc, its issue tc, the issuing stream, the code address of its word (10_queues
Table 7), the numeric events its results raise (class, count; 13_counters R350), and what it writes. The parts of one
instruction that land in one tc are one record. -/
structure Pend where
  due : Nat
  issued : Nat
  strm : Nat
  addr : Word
  evs : List (Nat × Nat)
  what : List Land
  deriving DecidableEq, Repr

/-- A lane value in flight (10_queues R273): placed on lane `n` at `station` in tc `tc`. -/
structure LaneVal where
  aw : Bool
  n : BitVec 3
  station : Nat
  tc : Nat
  v : Row
  deriving DecidableEq, Repr

/-- A use of a timed bank port (08_memories R230) in tc `tc`. -/
structure PortUse where
  tc : Nat
  g : Nat
  write : Bool
  deriving DecidableEq, Repr

/-- What an occupying or late-reading matrix instruction does (07_accumulators R211 to R221). `offs` are the offsets of
MMAS; `row0` and `g` are the tile rows of MWR and MACC. -/
inductive MxKind where
  | mma (plane : Nat)
  | mmas (offs : List Nat)
  | mmat (plane : Nat)
  | mwr (row0 : Nat)
  | macc (row0 : Nat)
  deriving DecidableEq, Repr

/-- A matrix instruction between its issue and its tile result (R212, R214): its remaining A reads (tc, a physical row or
a lane), the rows read so far in order, the planes it uses, and the guard of its columns or lanes. -/
structure MxJob where
  issued : Nat
  passes : Nat
  addr : Word
  kind : MxKind
  tile : Nat
  f : BitVec 5
  ftz : Bool
  ftm : Bool
  z : Bool
  act : QReg
  planes : List Plane
  reads : List (Nat × Sel)
  got : List Row
  evs : List (Nat × Nat)
  deriving DecidableEq, Repr

/-- What an SX decode job takes its entries from (10_queues R282): entries decoded at issue, or a slot read once its
tokens complete. -/
inductive SxSource where
  | ready (entries : List (BitVec 33))
  | slot (g n : Nat) (min : Nat) (f : BitVec 5) (base : BitVec 32) (cnt : Word)
  deriving DecidableEq, Repr

/-- An open decode job (R278, R279): `t0` and `w0` are its issue tc and wc. -/
structure SxJob where
  t0 : Nat
  w0 : Nat
  strict : Bool
  waits : List Nat
  src : SxSource
  started : Bool
  finished : Bool
  deriving DecidableEq, Repr

/-- The sparse offset queue of a tile (R276). `taken` counts every entry popped since the muster; it is the model's own
(log entry 19). -/
structure OffsetQueue where
  entries : List (BitVec 33) := []
  jobs : List SxJob := []
  pops : BitVec 32 := 0
  taken : Nat := 0
  strict : Bool := false
  rate : BitVec 5 := 16
  freeTc : Nat := 0
  deriving DecidableEq, Repr

/-- An exchange message on its way (R289). -/
structure XMsg where
  tc : Nat
  src : Nat
  srcTile : Nat
  addr : Word
  v : Row
  deriving DecidableEq, Repr

/-- An arm on a token (13_counters R344). -/
inductive Arm where
  | sem (n : Nat) (c : BitVec 32)
  | mtx (n : Nat)
  deriving DecidableEq, Repr

/-- A token (10_queues R284). -/
structure Token where
  out : Bool := false
  empty : Bool := false
  flt : Bool := false
  arm : Option Arm := none
  deriving DecidableEq, Repr

/-- Where a gateway command finds or leaves its images (08_memories R246): a physical row, whose contents a reading
command took at issue, or slots of a group from slot `n` on. -/
inductive Local where
  | row (n : Nat) (v : Row)
  | slots (g n : Nat)
  deriving DecidableEq, Repr

/-- What an outstanding command does (08_memories Table 9; 09_ordering R262 to R265; 11_tables R309). Addresses of
images are rank virtual addresses computed at issue. -/
inductive CmdKind where
  | fill (dst : Local) (ga : List Word) (seq : BitVec 16) (f : BitVec 5)
  | store (src : Local) (ga : List Word) (f : BitVec 5)
  | copy (gd gs : Word) (nb : Nat)
  | prefetch (ga : Word) (nb lv : Nat)
  | invalidate (ga : Word) (nb : Nat)
  | writeBack (ga : Word) (nb : Nat)
  | atomic (loc : Local) (ga : Word) (n : Nat) (op fmt : BitVec 4) (ret : Bool)
  | grid (ad aw : Word) (draw : BitVec 56)
  | acq (scope : BitVec 4) (sa : Word) (regions : List (Word × Word))
  | rel (scope : BitVec 4) (sa val : Word) (regions : List (Word × Word))
  | fence (scope : BitVec 4)
  deriving DecidableEq, Repr

/-- Bytes of a contribution on their way to the endpoint (12_endpoints R320, R322): the index of the image or line they
belong to, its address, where the bytes lie, the bytes, and whether their source could not be read. -/
structure Contribution where
  index : Nat
  image : Nat
  va : Nat
  bytes : List Byte
  bad : Bool
  deriving DecidableEq, Repr

/-- An outstanding command (08_memories R244): its token, its word's code address, its issue tc, the tokens it still waits
for, whether it started, which images it has filled, whether a record was queued, its events, what it does, and the
contributions still on their way. -/
structure Cmd where
  k : Nat
  addr : Word
  tclk : Nat
  waits : List Nat
  started : Bool := false
  done : List Nat := []
  flt : Bool := false
  evs : List (Nat × Nat) := []
  what : CmdKind
  contribs : List Contribution := []
  deriving DecidableEq, Repr

/-- A 128-byte line in a cache (08_memories R240): its line number (physical location div 128), its bytes little-endian,
which of them are dirty, the EV of the page it was brought in under (Table 8), and whether it holds uncorrectable data
(R409). -/
structure Line where
  no : Nat
  data : BitVec 1024
  mask : BitVec 128 := 0
  ev : BitVec 2 := 0
  bad : Bool := false
  deriving DecidableEq, Repr

/-- What a word has changed before its results land: its stream's draw counter, entries popped from the offset queue, the value
taken from a channel, the fresh mark of a slot (00_scope R10). -/
inductive Early where
  | draw
  | pops (es : List (BitVec 33))
  | chan (n : Nat) (v : Row)
  | fresh (g n : Nat)
  deriving DecidableEq, Repr

/-- Such a change, with the stream, issue tc and code address of its word. -/
structure EarlyWrite where
  strm : Nat
  issued : Nat
  addr : Word
  what : Early
  deriving DecidableEq, Repr

/-- A semaphore (13_counters Table 2). -/
structure Sem where
  count : BitVec 32 := 0
  ovf : Bool := false
  deriving DecidableEq, Repr

/-- A mutex (13_counters Table 2). -/
structure Mtx where
  held : Bool := false
  owner : BitVec 4 := 0
  armed : Bool := false
  tok : BitVec 6 := 0
  deriving DecidableEq, Repr

/-- A tile. `soft` marks an uncorrectable soft error in one of its rows or planes (14_contexts R372; log entry 20). lidx, stage,
clid and tid are set at the post of a launch record (11_tables R294). `watch` is the observation that ends a WAITA's wait: its
protected cycle, what it waits for, and whether the read faulted (09_ordering R271; log entry 67). `arrived` holds the messages of the
last five tc; `early` is what words whose results have not landed have changed already, which a trap of theirs takes back. -/
structure Tile where
  strms : Vector Strm 9 := Vector.replicate 9 {}
  rows : Vector Row 256 := Vector.replicate 256 {}
  planes : Vector Plane 2 := Vector.replicate 2 {}
  slots : List (Nat × Slot) := []
  lines : List Line := []
  fifo : List Nat := []
  lanes : List LaneVal := []
  oq : OffsetQueue := {}
  chans : Vector (List Row) 16 := Vector.replicate 16 []
  inbox : List XMsg := []
  arrived : List XMsg := []
  toks : Vector Token 64 := Vector.replicate 64 {}
  cmds : List Cmd := []
  sems : Vector Sem 16 := Vector.replicate 16 {}
  mtxs : Vector Mtx 8 := Vector.replicate 8 {}
  ev : Vector (BitVec 32) 16 := Vector.replicate 16 0
  evwin : Vector (BitVec 32) 16 := Vector.replicate 16 0
  evthr : Vector (BitVec 32) 16 := Vector.replicate 16 0
  soft : Bool := false
  mx : List MxJob := []
  mxReads : List Nat := []
  ports : List PortUse := []
  pend : List Pend := []
  hist : List (Nat × Target) := []
  early : List EarlyWrite := []
  watch : Option (Nat × Cond × Bool) := none
  lidx : BitVec 7 := 0
  stage : BitVec 3 := 0
  clid : BitVec 3 := 0
  tid : BitVec 4 := 0
  deriving DecidableEq, Repr

/-- A function staged in the code store (05_control_registers R140): its nine bodies, its size in bytes, whether it was
entered since the last step boundary, its successors, its liveness table, and its words (stream, offset) that hold an
uncorrectable soft error (15_traps R375; log entry 20). -/
structure Fn where
  fn : BitVec 24
  bodies : List (Option (List Code))
  size : Nat
  entered : Bool
  succ : List (BitVec 24)
  live : List Live
  bad : List (Nat × Nat) := []
  deriving DecidableEq, Repr

/-- A cluster: its carve-out and the value waiting for a safe point (08_memories R225, R226), its barrier counters
(13_counters R348), its fault queue of 32-byte records and overflow count (10_queues R286, R287), the wc and number of the
records appended last (15_traps R382), its code prefetch queue, and the code store of its 16 tiles (R288). -/
structure Cluster where
  carve : Word := 0
  carveNext : Option Word := none
  bc : Vector Word 16 := Vector.replicate 16 0
  faults : List (BitVec 256) := []
  ovf : BitVec 16 := 0
  fresh : Nat × Nat := (0, 0)
  prefetch : List (BitVec 24) := []
  code : List Fn := []
  deriving DecidableEq, Repr

/-- A precise trap raised in the current tc (15_traps R376, R377). -/
structure TrapRec where
  cause : Cause
  tile : Nat
  strm : Nat
  addr : Word
  ea : Word
  deriving DecidableEq, Repr

/-- A joint word of the current tc: RDV (scope, kind), CALL and RET (their target register), SAFE. -/
inductive Joint where
  | rdv (bay step : Bool)
  | call (fn : BitVec 24) (off : Nat)
  | ret (fn : BitVec 24) (off : Nat)
  | safe
  deriving DecidableEq, Repr

/-- A request at a bay (02_execution R44), in the order of precedence at one safe point. -/
inductive Request where
  | debug
  | preempt
  | switch
  | drain
  deriving DecidableEq, Repr

/-- The phase of a bay (02_execution R29, R46, R48, R51). -/
inductive Phase where
  | idle
  | posted
  | staged
  | running
  | trapped
  | taken (r : Request)
  | saved (r : Request)
  | ended
  deriving DecidableEq, Repr

/-- A protected cycle's condition that its sample found false (R36): whose it is, and whether it has been seen true since. -/
structure Wait where
  tile : Nat
  strm : Nat
  cond : Cond
  ok : Bool := false
  deriving DecidableEq, Repr

/-- A freeze of a bay before the tc `tc` (R36 to R38), begun at wc `since` for the causes whose performance counters are
`kinds` (13_counters Table 7), with what it waits for: it ends at the wc `resume` once that is known. -/
structure Freeze where
  tc : Nat
  since : Nat
  kinds : List Nat
  resume : Option Nat
  waits : List Wait := []
  deriving DecidableEq, Repr

/-- What the samples of one protected cycle can see of a tile (R36): its streams, whose registers the guards and operands name
(R144), its tokens, semaphores, mutexes and offset queue. -/
structure TileView where
  strms : Vector Strm 9
  toks : Vector Token 64
  sems : Vector Sem 16
  mtxs : Vector Mtx 8
  oq : OffsetQueue
  deriving DecidableEq, Repr

/-- What the samples of one protected cycle see of a bay (R36): taken at the start of tc `tc`, it holds what landed before that
tc, the barrier counters, the completed step barriers, the collectives delivered, and the functions resident everywhere. -/
structure View where
  tc : Nat
  tiles : Vector TileView 128
  bcs : Vector (Vector Word 16) 8
  completed : Nat
  delivered : List Nat
  resident : List (BitVec 24)
  deriving DecidableEq, Repr

/-- A CALL whose residency hold is to come, at protected cycle `due` (05_control_registers R140): the stream that issued it, its
callee, the code address of its word, and what kept the callee from being staged since (11_tables R298). -/
structure Enter where
  due : Nat
  tile : Nat
  strm : Nat
  fn : BitVec 24
  addr : Word
  fault : Option (Cause × Word) := none
  deriving DecidableEq, Repr

/-- A region binding entry (11_tables R299). -/
structure Region where
  sync : Word := 0
  base : Word := 0
  size : Word := 0
  deriving DecidableEq, Repr

/-- An open collective of a rank (12_endpoints R321 to R325, R340): its submission record, when it landed, the word and
tile that submitted it, the contribution bytes present with their poison marks by offset, whether the step's present run
has submitted it, and whether it has been delivered to the rank. -/
structure Coll where
  id : BitVec 10
  record : List Word
  landed : Nat
  addr : Word
  tile : Nat
  present : List (Nat × (Byte × Bool))
  opened : Bool
  delivered : Bool
  deriving DecidableEq, Repr

/-- The collective endpoint of a rank (12_endpoints Table 1, R331, R334, R336): its submissions of the step, the child
values it holds for nodes it owns or retains, and the child values waiting to be sent. -/
structure Endpoint where
  next : Nat := 0
  replay : Nat := 0
  opened : Nat := 0
  colls : List Coll := []
  values : List ChildValue := []
  deriving DecidableEq, Repr

/-- A rank that a bay steward has been assigned (02_execution R55, R56), with its class. -/
structure Assigned where
  job : Word
  rank : BitVec 20
  filler : Bool
  deriving DecidableEq, Repr

/-- A bay. `tclk` is the tc in progress or, while the bay is frozen, the last one begun plus one. `resume` is that of the
launch record as it was read at the post; `stepSafe` says that its last safe point is a step boundary; `lost` that an image
of the step met a soft error; `displaced` is the production rank a filler stands in for, with the collectives it waits for;
`chosen` the rank its steward has chosen to run next (02_execution R56, R57); `clocked` says that the bay has mustered; `views`
holds what the samples of the protected cycles ahead saw, by cycle, `entering` the CALLs whose callees must yet be resident, and
`released` the freeze that ended before the tc due next (log entry 19); `posted` is the launch record as the post read it; `hot` and `throttle` are the power
controller's reasons to throttle it; `tables` its voltage and frequency tables; `spare` the energy in mW·0.1 ms not yet in
`energy`. -/
structure Bay where
  service : Bool := false
  phase : Phase := .idle
  tclk : Nat := 0
  wclk : Nat := 0
  frzc : Nat := 0
  rankid : BitVec 20 := 0
  nrank : BitVec 21 := 0
  nstage : BitVec 4 := 0
  detm : Bool := false
  seed : Word := 0
  ptbase : Word := 0
  fillthr : Word := 0
  evact : BitVec 33 := 0
  step : Word := 0
  job : Word := 0
  filler : Bool := false
  resume : Bool := false
  save : Word := 0
  ico : Word := 0
  entry : BitVec 24 := 0
  fnCount : Nat := 0
  arrived : Nat := 0
  completed : Nat := 0
  regions : Vector Region 64 := Vector.replicate 64 {}
  assigned : List Assigned := []
  displaced : Option (Word × BitVec 20 × List Nat) := none
  chosen : Option (Word × BitVec 20) := none
  clocked : Bool := false
  requests : List (Request × Nat) := []
  freeze : Option Freeze := none
  released : Option Freeze := none
  views : List (Nat × View) := []
  entering : List Enter := []
  throttle : Bool := false
  hot : Bool := false
  tables : List Byte := []
  safeAt : Option Nat := none
  stepSafe : Bool := false
  lost : Bool := false
  drained : Bool := false
  imaged : Bool := false
  entryFault : Bool := false
  traps : List TrapRec := []
  trapTc : Nat := 0
  joints : List (Nat × Nat × Joint) := []
  issued : List (Nat × Nat) := []
  sysq : List (BitVec 256) := []
  sysFresh : Nat × Nat := (0, 0)
  energy : Word := 0
  spare : Nat := 0
  pm : Vector Word 48 := Vector.replicate 48 0
  launch : Vector Byte 256 := Vector.replicate 256 0
  posted : Vector Byte 256 := Vector.replicate 256 0
  post : Word := 0
  ep : Endpoint := {}
  clusters : Vector Cluster 8 := Vector.replicate 8 {}
  tiles : Vector Tile 128 := Vector.replicate 128 {}
  deriving DecidableEq, Repr

/-- A pending asynchronous delivery at a steward core (15_traps R379). -/
structure Delivery where
  cause : Cause
  rank : Bool
  bay : Nat
  deriving DecidableEq, Repr

/-- A steward core (05_control_registers R162; 15_traps R378 to R381): one stream, its local RAM (address, byte; an
unlisted byte is 0), its trap registers, its own tc, the flash slot its firmware came from, and the deliveries pending at it. -/
structure Steward where
  running : Bool := false
  slotB : Bool := false
  strm : Strm := {}
  ram : List Host.Cell := []
  tvbase : Word := 0
  ecause : BitVec 18 := 0
  epc : Word := 0
  estat : BitVec 3 := 0
  escr : Word := 0
  starg : BitVec 18 := 0
  tc : Nat := 0
  pend : List Pend := []
  pending : List Delivery := []
  deriving DecidableEq, Repr

/-- A job as the device knows it (02_execution R26, R27; 13_counters R343): the slot of its descriptor table (12_endpoints
R318), its rank count, its milestone counter, the ranks that have arrived at the step in progress and those whose image has
been written to both copies of their snapshot, and the fabric time at which a completion changes the milestone. -/
structure Job where
  id : Word
  slot : Nat
  v : Nat
  milestone : Word
  arrived : List (BitVec 20)
  imaged : List (BitVec 20)
  change : Option Nat
  deriving DecidableEq, Repr

/-- One generation of a rank's step snapshot (14_contexts R366, R368): an image's context or, with `launch`, the launch
record of an initial snapshot, and its 64 KiB pages, by number (location div 65,536). -/
structure Gen where
  launch : Bool := false
  ctx : List Byte := []
  pages : List (Nat × List Byte) := []
  deriving DecidableEq, Repr

/-- A rank's step snapshot (14_contexts R366): which of its two generations is current, both generations as the local copy
and its mirror hold them, whether the image of the step in progress has been written to the local copy, the pages written by
any agent between the images of the other and of the current generation, since the current image, and since the image of the
step in progress; `restored` says that the rank stands at it and has not run since, `mirrored` that the mirror holds the first
generation too. -/
structure Snapshot where
  job : Word
  rank : BitVec 20
  second : Bool := false
  gens : Gen × Gen := ({}, {})
  written : Bool := false
  restored : Bool := false
  mirrored : Bool := true
  before : List Nat := []
  since : List Nat := []
  after : List Nat := []
  deriving DecidableEq, Repr

/-- A rank whose endpoint no bay holds: switched out (12_endpoints R338) or, with `live`, ended (`done`) or stopped by a trap on
a bay that has another rank since (R317, R334). `steps` counts its completed steps, `held` says that it waits at an incomplete step
barrier (02_execution R56), and `save` is its context save area. -/
structure Parked where
  job : Word
  rank : BitVec 20
  live : Bool
  done : Bool := false
  filler : Bool
  nrank : BitVec 21
  ptbase : Word
  save : Word
  steps : Word
  held : Bool
  ep : Endpoint
  deriving DecidableEq, Repr

/-- The horizon check's view of the landings before safe point `t` of a rank (02_execution R36): tile, tc and target. It is
the model's own: the timetable repeats them in every run (log entry 19). -/
structure Horizon where
  job : Word
  rank : BitVec 20
  t : Nat
  hits : List (Nat × Nat × Target)
  deriving DecidableEq, Repr

/-- The power controller (19_boundaries R398, R402): its registers, the fabric time of its next tick, and the bounds that the
slew limit of R399 and the ticks so far set the next tick's power, in mW, once there has been one. -/
structure Power where
  slew : BitVec 11 := 200
  ben : Bool := true
  floor : BitVec 12 := 0
  cap : BitVec 12 := 4000
  aligned : Bool := false
  thr : Bool := false
  bal : Bool := false
  therm : Bool := false
  telbase : Word := 0
  seq : BitVec 32 := 0
  last : BitVec 32 := 0
  next : Nat := 100000
  range : Option (Nat × Nat) := none
  deriving DecidableEq, Repr

/-- What the device as a whole does (01_device R23; 19_boundaries R401, R405). -/
inductive DevicePhase where
  | boot
  | service
  | stopped
  | off
  deriving DecidableEq, Repr

/-- Who acts next within the current wc. -/
inductive Turn where
  | bayStart (b : Nat)
  | issue (b : Nat) (queue : List (Nat × Nat))
  | bayClose (b : Nat)
  | steward (k : Nat)
  | hub
  deriving DecidableEq, Repr

/-- Whose word is being issued: stream `k` of tile `x` of bay `b`, or steward core `k` (8 is the device steward). -/
inductive CoreId where
  | tile (b x k : Nat)
  | steward (k : Nat)
  deriving DecidableEq, Repr

/-- One Flaez. `mem` is the physical memory of the four tiers, keyed by physical location (tier · 2^52 + pa, R292), in
canonical form: keys strictly rising and no byte equal to 0, what an unlisted location reads as (log entry 4).
`badLines` are the line numbers of uncorrectable lines at home. `agenda`, `turn`, `core` and `free` are the model's own
(log entries 3 and 13). `hostBias` lists the 64 KiB pages of the HDM range in host bias (19_boundaries R394); `parked` holds
the endpoints that no bay holds; `fphase` is the fraction of a ns of fabric time in units of 1/270,000 ns; `ptp` the times
of the time root's exchange so far; `mirrorPort` the fabric port towards the mirror device (14_contexts R366) and `rootPort`
that towards the upstream neighbour (19_boundaries R396); `updates` the firmware images that wait to take effect (R406), by steward core; `published` the
lines of memory that releases have handed on so far (09_ordering R259), which is the model's own (log entry 68). -/
structure State where
  wc : Nat := 0
  turn : Turn := .bayStart 0
  core : CoreId := .steward 8
  agenda : List Instr := []
  free : Nat := 0
  phase : DevicePhase := .boot
  mem : List Host.Cell := []
  badLines : List Nat := []
  dies : Vector (List Line) 4 := Vector.replicate 4 []
  desc : List Host.Cell := []
  jobs : List Job := []
  snapshots : List Snapshot := []
  ftime : Word := 0
  fphase : Nat := 0
  timeRoot : Bool := false
  ptp : List Word := []
  acquired : Bool := false
  power : Power := {}
  doorbell : Word := 0
  mailbox : Vector Byte 64 := Vector.replicate 64 0
  flash : List FlashImage := []
  settings : Settings := {}
  updates : List (Nat × FlashImage) := []
  ports : BitVec 24 := 0
  mirrorPort : BitVec 5 := 0
  rootPort : BitVec 5 := 0
  cxlSize : Nat := 0
  compSize : Nat := 0
  hostBias : List Nat := []
  parked : List Parked := []
  horizons : List Horizon := []
  published : List Nat := []
  bays : Vector Bay 8 := Vector.replicate 8 {}
  stewards : Vector Steward 9 := Vector.replicate 9 {}
  deriving DecidableEq, Repr

/-- The machine right after device reset: every register at its reset value, out of service until boot (R405), nothing
in memory, every stream halted and every steward core stopped (log entry 2). p0 and q0 read true whatever is stored
(`Ops`). -/
def State.reset : State := {}

/-- Why the machine stops with a fault. -/
inductive Fault where
  /-- No meaning raises it: every cause the spec gives is a next state. Safe. -/
  | noCore
  deriving DecidableEq, Repr

/-- Why an instruction has no next state. -/
inductive Refusal where
  /-- The arm of an instruction without a meaning yet. Safe. -/
  | notModelled (mnemonic : String)
  /-- A step placed on the agenda that the state does not enable, such as the completion of a token no command holds:
  raised by the meanings of steps. Safe: such a step does not happen (95_what_each_step_holds). -/
  | notEnabled (what : String)
  deriving DecidableEq, Repr

end Sys2Proof.Machine
end

