-- ==== Sys2Proof/Machine/Ops.lean ====
section
/-! DEFINITION. The named operations over the state: sparse memories, registers, timed writes in flight, transfers of
control, raising a precise trap, taking a delivery on a steward core and returning from it. -/

/-- Whether the hub's verification of a flash image succeeds (19_boundaries R404): the header's magic, format version and
body length are right, every reserved byte is zero, and the signature is that of the header and body. -/
def Sys2Proof.FlashImage.verifies (f : FlashImage) : Bool :=
  f.magic == 0x47534946#32 && f.format == 1#16 && f.zeros.all (fun x => x == 0) && f.length.toNat == f.body.length && f.signed

namespace Sys2Proof.Machine

/-- The `i`th of a file, `d` beyond its end. -/
def nth {α : Type} {n : Nat} (v : Vector α n) (i : Nat) (d : α) : α := (v[i]?).getD d

/-- The file with its `i`th element replaced. -/
def put {α : Type} {n : Nat} (v : Vector α n) (i : Nat) (x : α) : Vector α n := v.setIfInBounds i x

/-- The state with its next free value drawn (log entry 13). -/
def State.draw (s : State) : Nat × State := ((Config.freeWord s.free).toNat, { s with free := s.free + 1 })

/-! ## Sparse memories: keys strictly rising -/

/-- The value listed under `k`. -/
def find {α : Type} : List (Nat × α) → Nat → Option α
  | [], _ => none
  | (j, v) :: m, k => if k < j then none else if k = j then some v else find m k

/-- `m` with `v` listed under `k`. -/
def insertAt {α : Type} : List (Nat × α) → Nat → α → List (Nat × α)
  | [], k, v => [(k, v)]
  | (j, w) :: m, k, v =>
    if k < j then (k, v) :: (j, w) :: m else if k = j then (k, v) :: m else (j, w) :: insertAt m k v

/-- `m` with nothing listed under `k`. -/
def eraseAt {α : Type} : List (Nat × α) → Nat → List (Nat × α)
  | [], _ => []
  | (j, w) :: m, k => if k < j then (j, w) :: m else if k = j then m else (j, w) :: eraseAt m k

/-- Keys strictly rising, all above `lo`. -/
def sortedFrom {α : Type} : List (Nat × α) → Nat → Bool
  | [], _ => true
  | (j, _) :: m, lo => lo ≤ j && sortedFrom m (j + 1)

/-- The canonical form of a byte memory: keys strictly rising, no byte 0 (what an unlisted byte reads as). -/
def memWf (m : List Host.Cell) : Bool := sortedFrom m 0 && m.all (fun c => c.2 != 0#8)

/-- The byte at `a` (log entry 4: an unlisted byte reads 0). -/
def readByte (m : List Host.Cell) (a : Nat) : Byte := (find m a).getD 0

/-- `m` with byte `v` at `a`. -/
def writeByte (m : List Host.Cell) (a : Nat) (v : Byte) : List Host.Cell :=
  if v = 0 then eraseAt m a else insertAt m a v

/-- `n` bytes from `a` up. -/
def readBytes (m : List Host.Cell) (a n : Nat) : List Byte := (List.range n).map (fun i => readByte m (a + i))

/-- `m` with the bytes `bs` from `a` up. -/
def writeBytes (m : List Host.Cell) (a : Nat) : List Byte → List Host.Cell
  | [] => m
  | b :: bs => writeBytes (writeByte m a b) (a + 1) bs

/-- The value of little-endian bytes (00_scope R3). -/
def leNat : List Byte → Nat
  | [] => 0
  | b :: bs => b.toNat + 256 * leNat bs

/-- `n` little-endian bytes of a value (R3). -/
def leBytes : Nat → Nat → List Byte
  | 0, _ => []
  | n + 1, v => BitVec.ofNat 8 v :: leBytes n (v / 256)

/-- `n` little-endian bytes of memory as a number. -/
def readLe (m : List Host.Cell) (a n : Nat) : Nat := leNat (readBytes m a n)

/-! ## The units -/

def State.bay (s : State) (b : Nat) : Bay := nth s.bays b {}
def State.setBay (s : State) (b : Nat) (y : Bay) : State := { s with bays := put s.bays b y }
def State.steward (s : State) (k : Nat) : Steward := nth s.stewards k {}
def State.setSteward (s : State) (k : Nat) (y : Steward) : State := { s with stewards := put s.stewards k y }
def Bay.tile (y : Bay) (x : Nat) : Tile := nth y.tiles x {}
def Bay.setTile (y : Bay) (x : Nat) (t : Tile) : Bay := { y with tiles := put y.tiles x t }
def Bay.cluster (y : Bay) (c : Nat) : Cluster := nth y.clusters c {}
def Bay.setCluster (y : Bay) (c : Nat) (u : Cluster) : Bay := { y with clusters := put y.clusters c u }
def Tile.strm (t : Tile) (k : Nat) : Strm := nth t.strms k {}
def Tile.setStrm (t : Tile) (k : Nat) (u : Strm) : Tile := { t with strms := put t.strms k u }
def State.tile (s : State) (b x : Nat) : Tile := (s.bay b).tile x
def State.setTile (s : State) (b x : Nat) (t : Tile) : State := s.setBay b ((s.bay b).setTile x t)

/-- The tile that issues; an empty one on a steward core, which has no banks and no tokens (R162). -/
def State.curTile (s : State) : Tile :=
  match s.core with
  | .tile b x _ => s.tile b x
  | .steward _ => {}

/-- The bay that issues; the empty bay on a steward core. -/
def State.curBay (s : State) : Bay :=
  match s.core with
  | .tile b _ _ => s.bay b
  | .steward _ => {}

/-- The state with the issuing tile replaced; unchanged on a steward core. -/
def State.setCurTile (s : State) (t : Tile) : State :=
  match s.core with
  | .tile b x _ => s.setTile b x t
  | .steward _ => s

/-- The state with the issuing bay replaced; unchanged on a steward core. -/
def State.setCurBay (s : State) (y : Bay) : State :=
  match s.core with
  | .tile b _ _ => s.setBay b y
  | .steward _ => s

/-- The issuing stream. -/
def State.strm (s : State) : Strm :=
  match s.core with
  | .tile b x k => (s.tile b x).strm k
  | .steward k => (s.steward k).strm

/-- The state with the issuing stream replaced. -/
def State.setStrm (s : State) (u : Strm) : State :=
  match s.core with
  | .tile b x k => s.setTile b x ((s.tile b x).setStrm k u)
  | .steward k => s.setSteward k { s.steward k with strm := u }

/-- The number of the issuing stream in strm order; a steward core's one stream is numbered 0. -/
def State.strmNo (s : State) : Nat :=
  match s.core with
  | .tile _ _ k => k
  | .steward _ => 0

/-- The tc in which the word issues. -/
def State.tc (s : State) : Nat :=
  match s.core with
  | .tile b _ _ => (s.bay b).tclk
  | .steward k => (s.steward k).tc

/-- Whether a steward core issues. -/
def State.onSteward (s : State) : Bool :=
  match s.core with
  | .tile _ _ _ => false
  | .steward _ => true

/-- A code address (10_queues Table 7): word offset, function, stream. -/
def codeAddr (k : Nat) (cur : Nat × Nat) : Word :=
  BitVec.ofNat 64 (cur.2 % 2 ^ 32 + cur.1 % 2 ^ 24 * 2 ^ 32 + k % 16 * 2 ^ 56)

/-- The code address of the word that issues. -/
def State.addr (s : State) : Word := codeAddr s.strmNo s.strm.cur

/-- stage of tile `x` (01_device R15). -/
def Bay.stageOf (y : Bay) (x : Nat) : Nat := (x / 16) / (8 / max 1 y.nstage.toNat)

/-- lidx of tile `x` (R15). -/
def Bay.lidxOf (y : Bay) (x : Nat) : Nat := 16 * ((x / 16) % (8 / max 1 y.nstage.toNat)) + x % 16

/-! ## Registers (05_control_registers R127 to R131) -/

/-- The physical a-register of a logical name (R127). -/
def Strm.physA (u : Strm) (n : BitVec 5) : Nat :=
  if n.toNat < 16 then n.toNat else 16 + (n.toNat - 16 + 16 - u.ra.toNat) % 16

/-- The physical p- or q-register of a logical name (R130; 06_vector_rows R167). -/
def Strm.physP (u : Strm) (n : BitVec 4) : Nat :=
  if n.toNat < 8 then n.toNat else 8 + (n.toNat - 8 + 8 - u.rp.toNat) % 8

/-- The physical row of a logical name (06_vector_rows R163). -/
def Strm.physV (u : Strm) (n : BitVec 8) : Nat :=
  if n.toNat < 128 then n.toNat else 128 + (n.toNat - 128 + 128 - u.rv.toNat) % 128

/-- The value of a logical a-register; a0 reads 0. -/
def Strm.readA (u : Strm) (n : BitVec 5) : Word := if n = 0 then 0 else nth u.a (u.physA n) 0

/-- The value of a branch-target register. -/
def Strm.readB (u : Strm) (n : BitVec 3) : Word := nth u.b n.toNat 0

/-- The value of a logical predicate; p0 reads true. -/
def Strm.readP (u : Strm) (n : BitVec 4) : Bool := n = 0 || nth u.p (u.physP n) false

/-- The value of a logical lane predicate; q0 reads all ones. -/
def Strm.readQ (u : Strm) (n : BitVec 4) : QReg := if n = 0 then BitVec.allOnes 512 else nth u.q (u.physP n) 0

/-! ## Timed writes (02_execution R33) -/

/-- The state with a timed write in flight from the issuing word, landing `lat` tc from now. -/
def State.post (s : State) (lat : Nat) (what : List Land) (evs : List (Nat × Nat) := []) : State :=
  let r : Pend := { due := s.tc + lat, issued := s.tc, strm := s.strmNo, addr := s.addr, evs := evs, what := what }
  match s.core with
  | .tile b x _ => let t := s.tile b x; s.setTile b x { t with pend := t.pend ++ [r] }
  | .steward k => let w := s.steward k; s.setSteward k { w with pend := w.pend ++ [r] }

/-- The write of a logical a-register; none for a0. -/
def State.landA (s : State) (n : BitVec 5) (v : Word) : List Land :=
  if n = 0 then [] else [.a s.strmNo (s.strm.physA n) v]

/-- The write of a branch-target register. -/
def State.landB (s : State) (n : BitVec 3) (v : Word) : List Land := [.b s.strmNo n.toNat v]

/-- The write of a logical predicate; none for p0. -/
def State.landP (s : State) (n : BitVec 4) (v : Bool) : List Land :=
  if n = 0 then [] else [.p s.strmNo (s.strm.physP n) v]

/-- The state after a write of a-register `n`, landing `lat` tc from now (R127: a write of a0 is discarded). -/
def State.writeA (s : State) (lat : Nat) (n : BitVec 5) (v : Word) : State := s.post lat (s.landA n v)

/-! ## Transfers of control (05_control_registers R133) -/

/-- The state with a transfer taken now by the issuing stream. -/
def State.transfer (s : State) (fn : BitVec 24) (off : Nat) : State :=
  s.setStrm { s.strm with xfer := some { fn := fn, off := off, tc := s.tc } }

/-- Whether the issuing word stands in the delay slots of a taken transfer (R134). -/
def State.inDelaySlot (s : State) : Bool :=
  match s.strm.xfer with
  | some x => x.tc < s.tc
  | none => false

/-! ## Steward deliveries (15_traps R378 to R380) -/

/-- The base register value for a new loop of bits: ecause of a delivery (15_traps Table 3). -/
def ecauseOf (c : Cause) (async rank : Bool) : BitVec 18 :=
  BitVec.ofNat 18 (c.toNat + (if async then 2 ^ 16 else 0) + (if rank then 2 ^ 17 else 0))

/-- The handler of cause `c`: its vector entry when valid, the default entry otherwise (R378; 11_tables R306). -/
def Steward.handler (w : Steward) (c : Cause) : Nat :=
  let entry (i : Nat) := readLe w.ram (w.tvbase.toNat + 8 * i) 8
  let e := entry c.toNat
  (if 2 ^ 63 ≤ e then e else entry 384) % 2 ^ 48

/-- TAKING AN EXCEPTION on a steward core: cause `c` at tc `u`, with `epc` the byte address of the word to resume. In
tc u + 1 ecause, epc and estat are written, and the handler's first word issues at u + 5 + its IDLE (R378). The record is
marked as issued by stream 9: it prevails over an instruction's write landing in that tc. -/
def Steward.deliver (w : Steward) (c : Cause) (async rank : Bool) (epc : Nat) : Steward :=
  let stat : BitVec 3 := 4#3 ||| (if w.estat.getLsbD 0 then 2#3 else 0#3)
  let what : List Land := [.cr 0 0x41 ((ecauseOf c async rank).setWidth 64), .cr 0 0x42 (BitVec.ofNat 64 epc),
    .cr 0 0x43 (stat.setWidth 64)]
  let r : Pend := { due := w.tc + 1, issued := w.tc, strm := 9, addr := 0, evs := [], what := what }
  { w with
    pend := w.pend ++ [r]
    strm := { w.strm with next := .word 0 (w.handler c) (w.tc + 5), xfer := none } }

/-- The steward with a cause made pending; a cause whose bit is set merges into it (R379). -/
def Steward.pendCause (w : Steward) (c : Cause) (rank : Bool) (b : Nat) : Steward :=
  if w.pending.any (fun d => if rank then d.rank && d.bay == b else !d.rank && d.cause == c) then w
  else { w with pending := w.pending ++ [{ cause := c, rank := rank, bay := b }] }

/-- A cause made pending at steward `k`. -/
def State.notify (s : State) (k : Nat) (c : Cause) (rank : Bool := false) (b : Nat := 0) : State :=
  s.setSteward k ((s.steward k).pendCause c rank b)

/-- A steward core's state when the firmware image `f` is loaded at byte 0 of its local RAM and its first word issues
(19_boundaries R405): registers at reset. -/
def Steward.load (w : Steward) (f : FlashImage) : Steward :=
  { running := true, slotB := f.slotB, ram := writeBytes [] 0 (f.body.take 0x80000), tc := w.tc,
    strm := { next := .word 0 0 (w.tc + 1) }, pending := w.pending }

/-- The type and target die of the firmware image of steward core `k` (R404): bay stewards by their bay's die. -/
def stewardImage (k : Nat) : Nat × Nat := if k < 8 then (3, k / 2) else (2, 4)

/-- The synchronous trap of steward core `k` (R378), or, while estat.act = 1, its double trap (R380): a bay steward
stops and the device steward receives 0x14E; the device steward is reloaded from its second firmware image. -/
def State.stewardTrap (s : State) (k : Nat) (c : Cause) : State :=
  let w := s.steward k
  if w.estat.getLsbD 2 then
    if k < 8 then
      (s.setSteward k { w with running := false, strm := { w.strm with next := .halted, xfer := none } }).notify 8 0x14E
    else
      match s.flash.find? (fun f => f.kind == 2#8 && f.die == 4#8 && f.slotB != w.slotB && f.verifies) with
      | some f => s.setSteward 8 (w.load f)
      | none => s.setSteward 8 { w with running := false, strm := { w.strm with next := .halted, xfer := none } }
  else s.setSteward k (w.deliver c false false w.strm.cur.2)

/-- A PRECISE TRAP raised by the issuing word (02_execution R48, R49; 15_traps R376, R378): in a rank it is recorded and
the close of the tc ends the step; on a steward core the synchronous trap is taken. The word writes nothing (R10). -/
def State.raise (s : State) (c : Cause) (ea : Word := 0) : State :=
  match s.core with
  | .tile b x k =>
    let y := s.bay b
    s.setBay b { y with traps := y.traps ++ [{ cause := c, tile := x, strm := k, addr := s.addr, ea := ea }] }
  | .steward k => s.stewardTrap k c

/-- THE RETURN FROM AN EXCEPTION (R150, R381): estat.ie := estat.pie and estat.act := 0, landing in the tc in which the
target word may first issue, and a transfer to epc; pie and epc are read at issue (00_scope R9). -/
def State.eretCore (s : State) : State :=
  match s.core with
  | .tile _ _ _ => s
  | .steward k =>
    let w := s.steward k
    (s.post 5 [.eret (w.estat.getLsbD 1)]).transfer 0 w.epc.toNat

/-! ## The outcome of a word -/

/-- A cause with the address the trap record reports for it (15_traps Table 2). -/
abbrev Hazard := Cause × Word

/-- The cause a word raises when several apply: the lowest code (R74). -/
def worst (hs : List Hazard) : Option Hazard :=
  hs.foldl (fun m h => match m with
    | none => some h
    | some x => some (if h.1.toNat < x.1.toNat then h else x)) none

/-- A list of causes without an address. -/
def plain (cs : List Cause) : List Hazard := cs.map (fun c => (c, 0))

/-- A cause when `b`. -/
def when (b : Bool) (c : Cause) (ea : Word := 0) : List Hazard := if b then [(c, ea)] else []

/-- Counts a performance event of a bay (13_counters R353). -/
def Bay.count (y : Bay) (i : Nat) (n : Nat := 1) : Bay :=
  { y with pm := put y.pm i (nth y.pm i 0 + BitVec.ofNat 64 n) }

end Sys2Proof.Machine
end

