-- ==== Sys2Proof/Machine/Flags.lean ====
section
/-! DEFINITION. Guards (03_encoding R65, R66), the shape every word's meaning has, the freeze-horizon check
(05_control_registers R144), tokens as a word sees them (08_memories R244), and code fetch. -/

namespace Sys2Proof.Machine

/-- The truth-table index 4·pa + 2·pb + pc (R65). -/
def ttIndex (pa pb pc : Bool) : Nat := (if pa then 4 else 0) + (if pb then 2 else 0) + (if pc then 1 else 0)

/-- The guard over the p registers: one evaluation for the whole instruction (R65). -/
def guardP (h : Head) (u : Strm) : Bool := h.tt.getLsbD (ttIndex (u.readP h.pa) (u.readP h.pb) (u.readP h.pc))

/-- The guard over the q registers, position by position (R65). -/
def guardQ (h : Head) (u : Strm) : QReg :=
  let a := u.readQ h.pa
  let b := u.readQ h.pb
  let c := u.readQ h.pc
  let pick (i : Nat) (x y z : QReg) : QReg := if h.tt.getLsbD i then x &&& y &&& z else 0
  pick 0 (~~~a) (~~~b) (~~~c) ||| pick 1 (~~~a) (~~~b) c ||| pick 2 (~~~a) b (~~~c) ||| pick 3 (~~~a) b c
    ||| pick 4 a (~~~b) (~~~c) ||| pick 5 a (~~~b) c ||| pick 6 a b (~~~c) ||| pick 7 a b c

/-- All nine streams. -/
def allStreams : List Nat := [0, 1, 2, 3, 4, 5, 6, 7, 8]

/-- Whether the issuing core executes a group: one of `ks` on a tile, a steward core when `stew` (Table 4, R72). -/
def State.executes (s : State) (ks : List Nat) (stew : Bool) : Bool :=
  match s.core with
  | .tile _ _ k => ks.contains k
  | .steward _ => stew

/-- A word of the p-register groups (R65, R73, R74): outside its streams it raises 0x003 whatever its guard; suppressed
it does `sup`; active it raises the lowest of its causes or has its effect. -/
def scalarWord (ks : List Nat) (stew : Bool) (i : Instr) (h : Head) (s : State) (hz : State → List Hazard)
    (eff : State → State) (sup : State → State := id) : Host.Outcome State Fault Refusal :=
  if !s.executes ks stew then .next (s.raise 0x003)
  else if !guardP h s.strm then .next (sup s)
  else match worst (plain (formCauses i) ++ hz s) with
    | some (c, ea) => .next (s.raise c ea)
    | none => .next (eff s)

/-- A word of the q-register groups (R65): fully suppressed it has no effect (06_vector_rows R174) beyond `sup`. The meaning is
given the positions at which its guard is true. -/
def laneWord (ks : List Nat) (i : Instr) (h : Head) (s : State) (hz : QReg → State → List Hazard)
    (eff : QReg → State → State) (sup : State → State := id) : Host.Outcome State Fault Refusal :=
  if !s.executes ks false then .next (s.raise 0x003)
  else
    let g := guardQ h s.strm
    if g = 0 then .next (sup s)
    else match worst (plain (formCauses i) ++ hz g s) with
      | some (c, ea) => .next (s.raise c ea)
      | none => .next (eff g s)

/-- No causes beyond those of the word's own bits. -/
def noHazard (_ : State) : List Hazard := []

/-- Cause 0x00F on a steward core (05_control_registers R147). -/
def notOnSteward (s : State) : List Hazard := when s.onSteward 0x00F

/-! ## The freeze horizon (R144) -/

/-- The predicates a guard reads, as targets of writes. -/
def guardTargets (h : Head) (s : State) : List Target :=
  [h.pa, h.pb, h.pc].map (fun n => Target.p s.strmNo (s.strm.physP n))

/-- The same for a guard of the q-register groups. -/
def guardTargetsQ (h : Head) (s : State) : List Target :=
  [h.pa, h.pb, h.pc].map (fun n => Target.q s.strmNo (s.strm.physP n))

/-- The register an operand selector reads, as a target of writes. -/
def selTargets (x : Sel) (s : State) : List Target :=
  match x with
  | .a n => [Target.a s.strmNo (s.strm.physA n)]
  | .b n => [Target.b s.strmNo n.toNat]
  | _ => []

/-- Whether a write to one of `ts` landed in tc t − 6 to t. -/
def State.horizonHit (s : State) (ts : List Target) : Bool :=
  s.curTile.hist.any (fun w => s.tc ≤ w.1 + 6 && w.1 ≤ s.tc && ts.contains w.2)

/-- A suppressed word that samples its guard: a write to the guard inside the horizon is cause 0x046 all the same (R144). -/
def State.lateGuard (s : State) (hit : State → List Hazard) : State :=
  match worst (hit s) with
  | some (c, ea) => s.raise c ea
  | none => s

/-- Cause 0x046 for a guard of p registers written inside the horizon (R144). -/
def guardLate (h : Head) (s : State) : List Hazard := when (s.horizonHit (guardTargets h s)) 0x046

/-! ## Tokens as the words of a tile see them (08_memories R244) -/

/-- Token `k` is outstanding at issue: its command has not completed, or an active producer of an earlier stream names it
in this tc. -/
def State.tokBusy (s : State) (k : Nat) : Bool :=
  (nth s.curTile.toks k {}).out || s.curTile.pend.any (fun r => r.what.contains (.tokOut k))

/-! ## Code (03_encoding R89; 02_execution R51) -/

/-- A staged function, in the code store of tile `x`: that of its cluster (10_queues R288). -/
def Bay.fnOf (y : Bay) (x : Nat) (fn : BitVec 24) : Option Fn := (y.cluster (x / 16)).code.find? (fun f => f.fn == fn)

/-- The body of stream `k` of tile `x` in function `fn`, when it is staged and present. -/
def Bay.body (y : Bay) (x : Nat) (fn : BitVec 24) (k : Nat) : Option (List Code) :=
  match y.fnOf x fn with
  | some f => (f.bodies[k]?).getD none
  | none => none

/-- The word at (fn, off) of a core's code: a tile's code store, or the steward's local RAM at a byte address. Past its end a
sequence of a steward core has no word: the core issues nothing more and takes no delivery (DESIGN CHOICE: R162 leaves it
open; log entry 69). -/
def State.fetchAt (s : State) (c : CoreId) (fn : BitVec 24) (off : Nat) : Option Code :=
  match c with
  | .tile b x k =>
    match (s.bay b).body x fn k with
    | some ws => ws[off]?
    | none => none
  | .steward k =>
    if off % 16 = 0 ∧ off < 0x80000 then some (BitVec.ofNat 128 (readLe (s.steward k).ram off 16)) else none

/-- Whether a word of the code store holds an uncorrectable soft error (15_traps R375). -/
def State.badFetch (s : State) (c : CoreId) (fn : BitVec 24) (off : Nat) : Bool :=
  match c with
  | .tile b x k => match (s.bay b).fnOf x fn with
    | some f => f.bad.contains (k, off)
    | none => false
  | .steward _ => false

/-- Whether cluster `cl` has function `fn` in its code store. -/
def Bay.hasFn (y : Bay) (cl : Nat) (fn : BitVec 24) : Bool := (y.cluster cl).code.any (fun f => f.fn == fn)

/-- Whether `fn` is resident in every tile's code store (02_execution R35). -/
def Bay.resident (y : Bay) (fn : BitVec 24) : Bool := (List.range 8).all (fun cl => y.hasFn cl fn)

/-! ## What samples see (02_execution R36) -/

/-- What a sample sees of a tile. -/
def Tile.look (t : Tile) : TileView := { strms := t.strms, toks := t.toks, sems := t.sems, mtxs := t.mtxs, oq := t.oq }

/-- What a sample sees of a bay at the start of tc `tc`. -/
def Bay.look (y : Bay) (tc : Nat) : View :=
  { tc := tc
    tiles := Vector.ofFn (fun x : Fin 128 => y.tiles[x.val].look)
    bcs := Vector.ofFn (fun c : Fin 8 => y.clusters[c.val].bc)
    completed := y.completed
    delivered := (y.ep.colls.filter (·.delivered)).map (·.id.toNat)
    resident := (((y.cluster 0).code.map (·.fn)).filter y.resident).dedup }

/-- What the samples of protected cycle `u` saw; before any of it has been seen, what they would see now. -/
def Bay.viewAt (y : Bay) (u : Nat) : View := ((y.views.find? (fun v => v.1 == u)).map Prod.snd).getD (y.look (y.tclk + 1))

/-- Tile `x` in a view. -/
def View.tile (v : View) (x : Nat) : TileView := nth v.tiles x (({} : Tile).look)

/-- The bay with the samples of protected cycle `u` taken at the start of tc `tc`. -/
def Bay.sample (y : Bay) (tc u : Nat) : Bay := { y with views := y.views ++ [(u, y.look tc)] }

/-- How far one word is from the next in the sequence: 1 in a body, 16 bytes on a steward core. -/
def CoreId.stride : CoreId → Nat
  | .tile _ _ _ => 1
  | .steward _ => 16

/-- The count of a WAIT, honoured whether it is active or not (R136); a negative count waits 0. -/
def waitCount (o : Ops) : Nat :=
  match o.d, o.c with
  | .imm v, _ => v.toInt.toNat
  | .lit, .lit w => w.toNat
  | _, _ => 0

/-- The tc a word adds after itself beyond 1: a WAIT's count, whatever its other bits hold, since the count is honoured when
the word is suppressed and its other bits are not looked at (R136, R74). -/
def extraWait (w : Code) : Nat :=
  if w.extractLsb' 112 16 = 0x0001#16 then
    match decodeSel (w.extractLsb' 68 12) with
    | some (.imm v) => v.toInt.toNat
    | some .lit => if w.getLsbD 32 then (w.extractLsb' 0 32).toNat else 0
    | _ => 0
  else 0

/-- The words that follow (fn, off) in a core's sequence when the first of them has base cycle `base`: (offset, issue
cycle) of at most `fuel` words due by tc `last` (R32). -/
def State.following (s : State) (c : CoreId) (fn : BitVec 24) (last : Nat) : Nat → Nat → Nat → List (Nat × Nat)
  | 0, _, _ => []
  | fuel + 1, off, base =>
    match s.fetchAt c fn off with
    | none => []
    | some w =>
      let due := base + (headOf w).idle.toNat
      if due ≤ last then
        (off, due) :: s.following c fn last fuel (off + c.stride) (due + 1 + extraWait w)
      else []

/-- The offset of the first word that a transfer taken at tc `t` by the word at `off` keeps from issuing (R133, R139). -/
def State.keptFrom (s : State) (c : CoreId) (fn : BitVec 24) (off t : Nat) : Nat :=
  off + c.stride * ((s.following c fn (t + 4) 5 (off + c.stride) (t + 1)).length + 1)

/-- Whether a target is bad for the issuing core (R135; R162 on a steward core). `same` asks for the current function,
`useOff` for an offset within the body. -/
def State.badTarget (s : State) (v : Word) (same useOff : Bool) : Bool :=
  match s.core with
  | .tile b x k =>
    let y := s.bay b
    let fn := v.extractLsb' 32 24
    v.extractLsb' 56 8 != 0#8 || (same && fn.toNat != s.strm.cur.1) || y.fnCount ≤ fn.toNat
      || (useOff && (match y.body x fn k with
          | some ws => ws.length ≤ (v.extractLsb' 0 32).toNat
          | none => true))
  | .steward _ => v.extractLsb' 0 4 != 0#4 || v.extractLsb' 48 16 != 0#16 || 0x80000 ≤ (v.extractLsb' 0 48).toNat

/-- The state with a transfer to the target a b register holds: its offset in the current function, or its byte address
on a steward core. -/
def State.transferTo (s : State) (v : Word) : State :=
  match s.core with
  | .tile _ _ _ => s.transfer (v.extractLsb' 32 24) (v.extractLsb' 0 32).toNat
  | .steward _ => s.transfer 0 (v.extractLsb' 0 48).toNat

/-- The hazards of a taken transfer to the target `v` (R134, R135). -/
def transferHazards (v : Word) (s : State) : List Hazard :=
  when s.inDelaySlot 0x041 ++ when (s.badTarget v true true) 0x047

end Sys2Proof.Machine
end

