-- ==== Sys2Proof/Machine/Operands.lean ====
section
/-! DEFINITION. Scalar operands (03_encoding R69, R70) and the control registers as operands (R79, R80; 00_scope R5, R6;
05_control_registers R149, R162). -/

namespace Sys2Proof.Machine

/-- A scalar operand: an a-register, an immediate sign-extended, or the literal sign-extended (R69, R70). -/
def State.intVal (s : State) (x : Sel) (c : Third) : Word :=
  match x, c with
  | .a n, _ => s.strm.readA n
  | .imm v, _ => v.signExtend 64
  | .lit, .lit w => w.signExtend 64
  | _, _ => 0

/-- Cause 0x004 when the a-register an operand names holds a value that `bad` holds of; the word's own bits decide the
immediates, the literals and the classes (R74; `formCauses`). -/
def State.regCheck (s : State) (x : Sel) (bad : Word → Bool) : List Hazard :=
  match x with
  | .a n => when (bad (s.strm.readA n)) 0x004
  | _ => []

/-- A scalar operand with the literal zero-extended, where the description states it. -/
def State.uintVal (s : State) (x : Sel) (c : Third) : Word :=
  match x, c with
  | .lit, .lit w => w.setWidth 64
  | _, _ => s.intVal x c

/-- The a-register a selector names; a0 for any other class. -/
def aReg : Sel → BitVec 5
  | .a n => n
  | _ => 0

/-- The b-register a selector names. -/
def bReg : Sel → BitVec 3
  | .b n => n
  | _ => 0

/-- The predicate a selector names. -/
def pReg : Sel → BitVec 4
  | .p n => n
  | _ => 0

/-- The immediate a selector holds, sign-extended. -/
def immVal : Sel → Int
  | .imm v => v.toInt
  | _ => 0

/-- The control register a selector names. -/
def crNum : Sel → BitVec 8
  | .cr n => n
  | _ => 0

/-- Performance counter `i` of bay `b` as pmcnt reads it (13_counters R353): 0 for 48 to 63. -/
def State.pmRead (s : State) (b i : Nat) : Word := nth (s.bay b).pm i 0

/-- The value of control register `num` at stream `k` of tile `x` of bay `b`, in the privileged view; `ev` and `bc` are
the selected event and barrier counters (Table 8). -/
def State.crRead (s : State) (b x k ev bc num : Nat) : Word :=
  let y := s.bay b
  let t := y.tile x
  let u := t.strm k
  match num with
  | 0x00 => BitVec.ofNat 64 y.tclk
  | 0x01 => BitVec.ofNat 64 y.wclk
  | 0x02 => u.lcnt.setWidth 64
  | 0x03 => (u.lbndS ++ u.lbndN).setWidth 64
  | 0x04 => BitVec.ofNat 64 (u.ra.toNat + u.rp.toNat * 2 ^ 8 + u.rv.toNat * 2 ^ 16)
  | 0x05 => y.rankid.setWidth 64
  | 0x06 => y.nrank.setWidth 64
  | 0x07 => t.lidx.setWidth 64
  | 0x08 => t.stage.setWidth 64
  | 0x09 => y.nstage.setWidth 64
  | 0x0A => t.clid.setWidth 64
  | 0x0B => t.tid.setWidth 64
  | 0x0C => match s.jobs.find? (fun j => j.id == y.job) with
    | some j => j.milestone
    | none => 0
  | 0x0D => s.ftime
  | 0x0E => 1
  | 0x0F => BitVec.ofNat 64 k
  | 0x10 => (bit u.ftm).setWidth 64
  | 0x11 => (bit y.detm).setWidth 64
  | 0x12 => u.evsel.setWidth 64
  | 0x13 => (nth t.ev ev 0).setWidth 64
  | 0x14 => (nth t.evwin ev 0).setWidth 64
  | 0x15 => (nth t.evthr ev 0).setWidth 64
  | 0x16 => y.evact.setWidth 64
  | 0x17 => BitVec.ofNat 64 y.frzc
  | 0x18 => u.draw.setWidth 64
  | 0x19 => u.pmsel.setWidth 64
  | 0x1A => s.pmRead b u.pmsel.toNat
  | 0x1B => u.bcsel.setWidth 64
  | 0x1C => nth (y.cluster (x / 16)).bc bc 0
  | 0x1D => y.energy
  | 0x20 => y.ptbase
  | 0x21 => (y.cluster (x / 16)).carve
  | 0x22 => y.fillthr
  | 0x23 => BitVec.ofNat 64 (128 * b + x)
  | 0x24 => (y.seed.extractLsb' 0 32).setWidth 64
  | 0x25 => (y.seed.extractLsb' 32 32).setWidth 64
  | _ => 0

/-- Control registers with no field in the unprivileged view (R6, 15_traps R385). -/
def privOnly (num : Nat) : Bool := [0x14, 0x15, 0x16, 0x20, 0x21, 0x22, 0x23, 0x24, 0x25].contains num

/-- Numbers Table 8 assigns; 0x40 to 0x45 on steward cores only (R80). -/
def assignedCr (num : Nat) (stew : Bool) : Bool :=
  num ≤ 0x1D || (0x20 ≤ num && num ≤ 0x25) || (stew && 0x40 ≤ num && num ≤ 0x45)

/-- The causes of naming control register `num` (R74, R80; R6). -/
def crHazards (num : Nat) (s : State) : List Hazard :=
  when (!assignedCr num s.onSteward) 0x00A ++ when (!s.onSteward && privOnly num) 0x009

/-- The fields of starg (05_control_registers Table 19): bay, tile x, stream, counter index. A bay steward always
selects its own bay. -/
def stargTarget (k : Nat) (v : BitVec 18) : Nat × Nat × Nat × Nat :=
  (if k < 8 then k else (v.extractLsb' 0 3).toNat,
   16 * (v.extractLsb' 3 3).toNat + (v.extractLsb' 6 4).toNat, (v.extractLsb' 10 4).toNat, (v.extractLsb' 14 4).toNat)

/-- A steward core's own control register (15_traps Table 3). -/
def Steward.cr (w : Steward) (num : Nat) : Word :=
  match num with
  | 0x40 => w.tvbase
  | 0x41 => w.ecause.setWidth 64
  | 0x42 => w.epc
  | 0x43 => w.estat.setWidth 64
  | 0x44 => w.escr
  | _ => w.starg.setWidth 64

/-- The value SRD copies (R149, R162). -/
def State.srdVal (s : State) (num : Nat) : Word :=
  match s.core with
  | .tile b x k =>
    let u := (s.tile b x).strm k
    s.crRead b x k u.evsel.toNat u.bcsel.toNat num
  | .steward k =>
    if 0x40 ≤ num then (s.steward k).cr num
    else
      let (b, x, j, n) := stargTarget k (s.steward k).starg
      s.crRead b x j n n num

/-- The `j`th sp of a carve value, in units of 64 KiB (08_memories R225). -/
def spUnits (carve : Word) (g : Nat) : Nat := (carve.extractLsb' (8 * g) 4).toNat

/-- The `g`th code unit count of a carve value. -/
def codeUnits (carve : Word) (g : Nat) : Nat := (carve.extractLsb' (8 * g + 4) 4).toNat

/-- A carve value in which some group has sp + code > 8 (R225). -/
def badCarve (v : Word) : Bool := (List.range 8).any (fun g => 8 < spUnits v g + codeUnits v g)

/-- The causes of the value an SWR writes: lbnd.s above 8 (R131), starg.stream above 8 (Table 19), a bad carve (R225). -/
def swrHazards (num : Nat) (v : Word) (s : State) : List Hazard :=
  when (num == 0x03 && 8 < (v.extractLsb' 32 4).toNat) 0x004
    ++ when (s.onSteward && num == 0x45 && 8 < (v.extractLsb' 10 4).toNat) 0x004
    ++ when (s.onSteward && num == 0x21 && badCarve v) 0x004

/-- Control registers an SWR of a rank changes (Table 8, access rw); a write of any other has no effect (R5). -/
def rwCr (num : Nat) : Bool := [0x02, 0x03, 0x04, 0x10, 0x12, 0x19, 0x1B].contains num

/-- What SWR lands (R149, R162). On a steward core the target of a register below 0x40 is the one starg selects at issue,
carried as 10 + starg in the stream field. -/
def State.swrLand (s : State) (num : BitVec 8) (v : Word) : List Land :=
  match s.core with
  | .tile _ _ k => if rwCr num.toNat then [.cr k num v] else []
  | .steward k => if 0x40 ≤ num.toNat then [.cr 0 num v] else [.cr (10 + (s.steward k).starg.toNat) num v]

end Sys2Proof.Machine
end

