-- ==== Sys2Proof/Machine/Numbers.lean ====
section
/-! DEFINITION. Number formats, rounding, ACC96, keyed selection, the canonical tree and Philox (04_numbers R99 to R126).
A finite value is (−1)^neg · m · 2^e; with `st` it stands for an exact real strictly between m · 2^e and (m + 1) · 2^e of
that sign, which rounds as that real does. Every function that counts events answers their classes in a list. -/

namespace Sys2Proof.Machine

/-- A decoded element (R126): NaN (signalling or quiet), ±∞, or a finite value. -/
inductive Val where
  | nan (sig : Bool)
  | inf (neg : Bool)
  | fin (neg : Bool) (m : Nat) (e : Int) (st : Bool)
  deriving DecidableEq, Repr

/-- +0. -/
def Val.zero : Val := .fin false 0 0 false

/-- An integer as a value. -/
def Val.ofInt (i : Int) : Val := .fin (i < 0) i.natAbs 0 false

/-- Whether a value is a NaN. -/
def Val.isNan : Val → Bool
  | .nan _ => true
  | _ => false

/-- Whether a value is a signalling NaN. -/
def Val.isSnan : Val → Bool
  | .nan s => s
  | _ => false

/-- Whether a value is ±0. -/
def Val.isZero : Val → Bool
  | .fin _ m _ st => m == 0 && !st
  | _ => false

/-- The sign of a value. -/
def Val.sign : Val → Bool
  | .nan _ => false
  | .inf n => n
  | .fin n _ _ _ => n

/-- The value with its sign inverted. -/
def Val.negate : Val → Val
  | .nan s => .nan s
  | .inf n => .inf (!n)
  | .fin n m e st => .fin (!n) m e st

/-- A floating format's fields (R101, Table 2): exponent and fraction widths, bias, whether it has infinities, the
pattern of its largest finite magnitude and of its canonical NaN. -/
structure FloatFormat where
  ew : Nat
  fw : Nat
  bias : Int
  hasInf : Bool
  maxMag : Nat
  nan : Nat
  deriving DecidableEq, Repr

/-- FP8 E4M3, also the element of MXFP8. -/
def e4m3 : FloatFormat := ⟨4, 3, 7, false, 0x7E, 0x7F⟩
/-- E2M1, the element of MXFP4; it has no NaN. -/
def e2m1 : FloatFormat := ⟨2, 1, 1, false, 7, 0⟩

/-- The floating format of a tag (Table 2). -/
def floatFormat (f : BitVec 5) : Option FloatFormat :=
  match f.toNat with
  | 8 => some e4m3
  | 9 => some ⟨5, 2, 15, true, 0x7B, 0x7E⟩
  | 10 => some ⟨5, 10, 15, true, 0x7BFF, 0x7E00⟩
  | 11 => some ⟨8, 7, 127, true, 0x7F7F, 0x7FC0⟩
  | 12 => some ⟨8, 23, 127, true, 0x7F7FFFFF, 0x7FC00000⟩
  | 13 => some ⟨11, 52, 1023, true, 0x7FEFFFFFFFFFFFFF, 0x7FF8000000000000⟩
  | _ => none

/-- A pattern of a floating format decoded (R101, R102). -/
def FloatFormat.decode (p : FloatFormat) (x : Nat) : Val :=
  let neg := x / 2 ^ (p.ew + p.fw) % 2 == 1
  let ex := x / 2 ^ p.fw % 2 ^ p.ew
  let fr := x % 2 ^ p.fw
  if p.hasInf ∧ ex = 2 ^ p.ew - 1 then
    if fr = 0 then .inf neg else .nan (fr < 2 ^ (p.fw - 1))
  else if p.nan = 0x7F ∧ x % 128 = 0x7F then .nan false
  else if ex = 0 then .fin neg fr (1 - p.bias - p.fw) false
  else .fin neg (2 ^ p.fw + fr) (ex - p.bias - p.fw) false

/-- Whether a pattern is subnormal. -/
def FloatFormat.subnormal (p : FloatFormat) (x : Nat) : Bool := x / 2 ^ p.fw % 2 ^ p.ew == 0 && x % 2 ^ p.fw != 0

/-! ## Rounding (R114, R116) -/

/-- Rounding a fraction to the next whole number, up or down in magnitude (Table 3): the value is n + (r + s)/2^sh with s
in (0, 1) when `st` and 0 otherwise. `u` is the random word of sr. -/
def roundsUp (rm : Nat) (neg : Bool) (n r sh : Nat) (st : Bool) (u : Nat) : Bool :=
  let half := 2 ^ sh
  let exact := r == 0 && !st
  !exact && (match rm with
    | 0 => 2 * r > half || (2 * r == half && (st || n % 2 == 1))
    | 1 => false
    | 2 => neg
    | 3 => !neg
    | _ =>
      if neg then
        -- hi is the smaller magnitude: taken when u < floor((1 - fraction) · 2^32)
        !(u < (2 ^ sh - r - (if st then 1 else 0)) * 2 ^ 32 / 2 ^ sh)
      else u < r * 2 ^ 32 / 2 ^ sh)

/-- m · 2^e rounded to a whole number of 2^q: the count and whether it is inexact. A value whose bits all lie below q
rounds from 0. -/
def roundAt (rm : Nat) (neg : Bool) (m : Nat) (e : Int) (st : Bool) (q : Int) (u : Nat) : Nat × Bool :=
  if e ≥ q then (m * 2 ^ (e - q).toNat, st)
  else
    let sh := (q - e).toNat
    let n := m / 2 ^ sh
    let r := m % 2 ^ sh
    (if roundsUp rm neg n r sh st u then n + 1 else n, r != 0 || st)

/-- round_to for a floating format (R103, R114, R116): the pattern and the events. `flush` is ftz for tags 8 to 10. -/
def FloatFormat.round (p : FloatFormat) (rm : Nat) (flush : Bool) (u : Nat) (v : Val) : Nat × List Nat :=
  let sgn (neg : Bool) : Nat := if neg then 2 ^ (p.ew + p.fw) else 0
  let infMag := (2 ^ p.ew - 1) * 2 ^ p.fw
  match v with
  | .nan _ => (p.nan, [])
  | .inf neg => if p.hasInf then (sgn neg + infMag, []) else (p.nan, [0])
  | .fin neg m e st =>
    if m = 0 ∧ !st then (sgn neg, [])
    else
      let emin : Int := 1 - p.bias
      let top : Int := (m.log2 : Int) + e
      let maxV := p.decode p.maxMag
      let above : Bool := match maxV with
        | .fin _ mm me _ =>
          if e ≥ me then m * 2 ^ (e - me).toNat ≥ mm + (if st then 0 else 1)
          else m ≥ mm * 2 ^ (me - e).toNat + (if st then 0 else 1)
        | _ => false
      if above && !p.hasInf then (sgn neg + p.maxMag, [8, 4])
      else
        let rm := if above && rm == 4 then 0 else rm
        let q : Int := (if top < emin then emin else top) - p.fw
        let (n, inexact) := roundAt rm neg m e st q u
        let mag := ((q + p.fw + p.bias) * 2 ^ p.fw).toNat + n - 2 ^ p.fw
        if mag > p.maxMag then
          let toInf := rm == 0 || (rm == 2 && neg) || (rm == 3 && !neg)
          (sgn neg + (if toInf then infMag else p.maxMag), [2, 4])
        else
          let tiny := top < emin && (roundAt rm neg m e st (top - p.fw) u).1 < 2 ^ (p.fw + (emin - top).toNat)
          if flush && mag < 2 ^ p.fw && mag != 0 then (sgn neg, [9, 3, 4])
          else (sgn neg + mag, (if inexact then (if tiny then [3, 4] else [4]) else []))

/-- The range of an integer format. -/
def intRange (f : BitVec 5) : Int × Int :=
  let w := elemWidth f
  if f.toNat ≤ 4 then (-(2 ^ (w - 1) : Int), 2 ^ (w - 1) - 1) else (0, 2 ^ w - 1)

/-- An integer limited to a range, with the saturation event (R126). -/
def satInt (x lo hi : Int) : Int × List Nat :=
  if x < lo then (lo, [8]) else if hi < x then (hi, [8]) else (x, [])

/-- A value rounded to an integer within a range (R116). -/
def roundInt (rm : Nat) (lo hi : Int) (u : Nat) (v : Val) : Int × List Nat :=
  match v with
  | .nan _ => (0, [0])
  | .inf neg => (if neg then lo else hi, [8])
  | .fin neg m e st =>
    let (n, inexact) := roundAt rm neg m e st 0 u
    let x : Int := if neg then -(n : Int) else n
    let (y, sat) := satInt x lo hi
    (y, sat ++ (if inexact || y != x then [4] else []))

/-- An integer as a pattern of `w` bits. -/
def intBits (w : Nat) (x : Int) : Nat := (x % 2 ^ w).toNat

/-- A pattern of `w` bits read as two's complement. -/
def sintOf (w x : Nat) : Int := if 2 ^ (w - 1) ≤ x then (x : Int) - 2 ^ w else x

/-- An element of an integer type as a number. -/
def intElem (f : BitVec 5) (x : Nat) : Int := if f.toNat ≤ 4 then sintOf (elemWidth f) x else x

/-- An exact integer wrapped (event 14 outside the range) or saturated (06_vector_rows R187). -/
def fitInt (f : BitVec 5) (sat : Bool) (x : Int) : Nat × List Nat :=
  let (lo, hi) := intRange f
  if sat then
    let (y, ev) := satInt x lo hi
    (intBits (elemWidth f) y, ev)
  else (intBits (elemWidth f) x, if x < lo ∨ hi < x then [14] else [])

/-- Whether ftz applies to a format: tags 8, 9 and 10 (R103). -/
def ftzTag (f : BitVec 5) : Bool := tagIn f 8 10

/-- round_to(v, f, rm) for tags 1 to 13 (R116, R126). -/
def roundTo (f : BitVec 5) (rm : Nat) (ftz : Bool) (u : Nat) (v : Val) : Nat × List Nat :=
  match floatFormat f with
  | some p => p.round rm (ftz && ftzTag f) u v
  | none =>
    let (lo, hi) := intRange f
    let (x, ev) := roundInt rm lo hi u v
    (intBits (elemWidth f) x, ev)

/-- The events of reading a signalling NaN (R102). -/
def snanEvents (vs : List Val) : List Nat := if vs.any Val.isSnan then [0, 10] else []

/-- A conversion of one value (R102, R116): round_to with the events of a signalling NaN, each class once. -/
def convertTo (f : BitVec 5) (rm : Nat) (ftz : Bool) (u : Nat) (v : Val) : Nat × List Nat :=
  let (x, ev) := roundTo f rm ftz u v
  (x, if v.isSnan then [0, 10] else ev)

/-- Bits of a BFP mantissa (R105): k for tag 14 + k. -/
def bfpBits (f : BitVec 5) : Nat := f.toNat - 14

/-- decode(f, x, X) (R101 to R105); `ftz` reads a subnormal of tags 8 to 10 as zero of its sign (R103). -/
def decodeElem (f : BitVec 5) (ftz : Bool) (scale : Nat) (x : Nat) : Val :=
  match floatFormat f with
  | some p =>
    if ftz && ftzTag f && p.subnormal x then .fin (x / 2 ^ (p.ew + p.fw) % 2 == 1) 0 0 false else p.decode x
  | none =>
    if blockScaled f then
      if scale = 255 then .nan false
      else if f = 14 ∨ f = 15 then
        match (if f = 14 then e2m1 else e4m3).decode x with
        | .fin neg m e st => .fin neg m (e + (scale : Int) - 127) st
        | v => v
      else
        let k := bfpBits f
        let m := sintOf k (x % 2 ^ k)
        .fin (m < 0) m.natAbs ((scale : Int) - 127 - (k - 2)) false
    else if f.toNat ≤ 4 then Val.ofInt (sintOf (elemWidth f) x)
    else .fin false x 0 false

/-- The canonical NaN of a floating format, 0 of any other. -/
def canonNan (f : BitVec 5) : Nat :=
  match floatFormat f with
  | some p => p.nan
  | none => 0

/-- An exact zero whose sign R114 gives: +0, −0 in rdn. -/
def exactZero (rm : Nat) : Val := .fin (rm == 2) 0 0 false

/-- The exact sum of two finite values. An "exact zero sum" (R114) is read as one of operands of opposite signs: two zeros
of one sign keep it in every mode. DESIGN CHOICE (log entry 63). -/
def sumFin (rm : Nat) (n1 : Bool) (m1 : Nat) (e1 : Int) (n2 : Bool) (m2 : Nat) (e2 : Int) : Val :=
  if m1 = 0 ∧ m2 = 0 then (if n1 = n2 then .fin n1 0 0 false else exactZero rm)
  else if m1 = 0 then .fin n2 m2 e2 false
  else if m2 = 0 then .fin n1 m1 e1 false
  else
    let e := min e1 e2
    let a : Int := (m1 * 2 ^ (e1 - e).toNat : Nat)
    let b : Int := (m2 * 2 ^ (e2 - e).toNat : Nat)
    let t := (if n1 then -a else a) + (if n2 then -b else b)
    if t = 0 then exactZero rm else .fin (t < 0) t.natAbs e false

/-- A result of arithmetic before rounding, and the events IEEE 754 and R178 give it: `nan` stands for the canonical
NaN. -/
abbrev Exact := Val × List Nat

/-- The canonical NaN: an invalid operation, or a NaN operand (R178). -/
def nanResult (invalid : Bool) (vs : List Val) : Exact :=
  let sn := vs.any Val.isSnan
  (.nan false, (if invalid || sn then [0] else []) ++ (if sn then [10] else [])
    ++ (if invalid && !(vs.any Val.isNan) then [13] else []))

/-- a + b before rounding. -/
def addV (rm : Nat) (a b : Val) : Exact :=
  match a, b with
  | .nan _, _ => nanResult false [a, b]
  | _, .nan _ => nanResult false [a, b]
  | .inf x, .inf y => if x = y then (.inf x, []) else nanResult true [a, b]
  | .inf x, _ => (.inf x, [])
  | _, .inf y => (.inf y, [])
  | .fin n1 m1 e1 _, .fin n2 m2 e2 _ => (sumFin rm n1 m1 e1 n2 m2 e2, [])

/-- a · b before rounding. -/
def mulV (a b : Val) : Exact :=
  match a, b with
  | .nan _, _ => nanResult false [a, b]
  | _, .nan _ => nanResult false [a, b]
  | .inf x, v => if v.isZero then nanResult true [a, b] else (.inf (x ^^ v.sign), [])
  | v, .inf y => if v.isZero then nanResult true [a, b] else (.inf (v.sign ^^ y), [])
  | .fin n1 m1 e1 _, .fin n2 m2 e2 _ => (.fin (n1 ^^ n2) (m1 * m2) (e1 + e2) false, [])

/-- a · b + c before its one rounding (R178: ∞ · 0 is invalid whatever c). -/
def fmaV (rm : Nat) (a b c : Val) : Exact :=
  let bad : Bool := match a, b with
    | .inf _, v => v.isZero
    | v, .inf _ => v.isZero
    | _, _ => false
  if bad then nanResult true [a, b, c]
  else if a.isNan || b.isNan || c.isNan then nanResult false [a, b, c]
  else
    let p := (mulV a b).1
    match p, c with
    | .inf x, .inf y => if x = y then (.inf x, []) else nanResult true [a, b, c]
    | _, _ => addV rm p c

/-- An exact result rounded: its own events and those of the rounding. -/
def finish (f : BitVec 5) (rm : Nat) (ftz : Bool) (u : Nat) (x : Exact) : Nat × List Nat :=
  match x.1 with
  | .nan _ => (canonNan f, x.2)
  | v => let (y, ev) := roundTo f rm ftz u v; (y, x.2 ++ ev)

/-- fma(a, b, c) in FP32 with rne (R126). -/
def fma32 (a b c : Nat) : Nat × List Nat :=
  let d (x : Nat) := decodeElem 12 false 127 x
  finish 12 0 false 0 (fmaV 0 (d a) (d b) (d c))

/-! ## Comparison (R120, R121) -/

/-- The order of two values that are not NaN, with −0 = +0. -/
def cmpV (a b : Val) : Ordering :=
  match a, b with
  | .inf x, .inf y => if x = y then .eq else if x then .lt else .gt
  | .inf x, _ => if x then .lt else .gt
  | _, .inf y => if y then .gt else .lt
  | .fin n1 m1 e1 _, .fin n2 m2 e2 _ =>
    let e := min e1 e2
    let a : Int := (m1 * 2 ^ (e1 - e).toNat : Nat)
    let b : Int := (m2 * 2 ^ (e2 - e).toNat : Nat)
    compare (if n1 then -a else a) (if n2 then -b else b)
  | _, _ => .eq

/-- vord(x) of a pattern of width `w`, given whether it is a NaN (R126). -/
def vord (w : Nat) (nan : Bool) (x : Nat) : Nat :=
  if nan then 2 ^ w else if x < 2 ^ (w - 1) then 2 ^ (w - 1) + x else 2 ^ (w - 1) - 1 - (x - 2 ^ (w - 1))

/-- VMIN, VMAX, VMINN and VMAXN on patterns of one format (R120): `mx` chooses the larger, `num` ignores a NaN. -/
def minMax (f : BitVec 5) (mx num : Bool) (x y : Nat) : Nat × List Nat :=
  let a := decodeElem f false 127 x
  let b := decodeElem f false 127 y
  let w := elemWidth f
  if isInt f then
    let le : Bool := match cmpV a b with
      | .gt => false
      | _ => true
    (if mx == le then y else x, [])
  else
    let ev := snanEvents [a, b]
    if a.isNan && b.isNan then (canonNan f, ev)
    else if a.isNan then (if num then y else canonNan f, ev)
    else if b.isNan then (if num then x else canonNan f, ev)
    else
      let le := vord w false x ≤ vord w false y
      (if mx == le then y else x, ev)

/-- key_select(a, b, dir) on KEY64 patterns (R121). -/
def keySelect (mx : Bool) (a b : Nat) : Nat :=
  let ord (x : Nat) : Nat := vord 32 (decodeElem 12 false 127 (x / 2 ^ 32)).isNan (x / 2 ^ 32)
  let oa := ord a
  let ob := ord b
  if oa ≠ ob then (if mx = decide (oa > ob) then a else b)
  else if b % 2 ^ 32 < a % 2 ^ 32 then b else a

/-! ## ACC96 (R117 to R119) -/

/-- The 104-bit integer of a slot. -/
def accInt (c : Nat) : Int := sintOf 104 (c % 2 ^ 104)

/-- A slot with its 104-bit integer replaced; special bits kept. -/
def accPut (c : Nat) (t : Int) : Nat := c / 2 ^ 104 % 16 * 2 ^ 104 + intBits 104 t

/-- A slot with special bit `i` of nan, pinf, ninf, lost set. -/
def accFlag (c i : Nat) : Nat := if c / 2 ^ (104 + i) % 2 = 1 then c % 2 ^ 108 else c % 2 ^ 108 + 2 ^ (104 + i)

/-- The nearest whole number of units to a value, ties to even; `none` when its magnitude is 2^103 or more. The second
result says whether it was rounded. -/
def accUnits (v : Int × Int) : Option (Int × Bool) :=
  let (m, e) := v
  if m = 0 then some (0, false)
  else if e + (m.natAbs.log2 : Int) ≥ 104 then none
  else if e + (m.natAbs.log2 : Int) < -2 then some (0, true)
  else
    let (n, inexact) := roundAt 0 (m < 0) m.natAbs e false 0 0
    if 2 ^ 103 ≤ n then none else some (if m < 0 then -(n : Int) else n, inexact)

/-- acc_add(c, p, a) (R118, R126): the slot and the events epoch lost (7) or inexact (4). -/
def accAdd (c : Nat) (p : Val) (a : Int) : Nat × List Nat :=
  match p with
  | .nan _ => (accFlag c 0, [])
  | .inf neg => (accFlag c (if neg then 2 else 1), [])
  | .fin neg m e _ =>
    match accUnits (if neg then -(m : Int) else m, e - (a - 64)) with
    | none => (accFlag c 3, [7])
    | some (q, inexact) => (accPut c (accInt c + q), if inexact then [4] else [])

/-- The value acc_out takes from a slot by the cases of R119: NaN, an infinity, a NaN for lost (with its event), an
out-of-range slot's sign, or the exact value. -/
inductive AccValue where
  | nan
  | inf (neg : Bool)
  | lost
  | range (neg : Bool)
  | value (v : Val)
  deriving DecidableEq, Repr

/-- The case of R119 a slot at anchor `a` falls under. A slot whose integer is 0 gives +0 in every mode, rdn included. DESIGN
CHOICE (log entry 63). -/
def accCase (c : Nat) (a : Int) : AccValue :=
  let fl (i : Nat) : Bool := c / 2 ^ (104 + i) % 2 == 1
  if fl 0 || (fl 1 && fl 2) then .nan
  else if fl 1 then .inf false
  else if fl 2 then .inf true
  else if fl 3 then .lost
  else
    let t := accInt c
    let e := c / 2 ^ 96 % 256
    let hi := c / 2 ^ 95 % 2
    if (e = 0 ∧ hi = 0) ∨ (e = 255 ∧ hi = 1) then .value (.fin (t < 0) t.natAbs (a - 64) false)
    else .range (t < 0)

/-- acc_out(slot, f, rm) for tags 1 to 13 (R119). -/
def accOut (f : BitVec 5) (rm : Nat) (ftz : Bool) (u : Nat) (c : Nat) (a : Int) : Nat × List Nat :=
  match accCase c a with
  | .nan => (canonNan f, if isInt f then [0] else [])
  | .inf neg => roundTo f rm ftz u (.inf neg)
  | .lost => (canonNan f, [7])
  | .range neg =>
    match floatFormat f with
    | some p => (p.maxMag + (if neg then 2 ^ (p.ew + p.fw) else 0), [6])
    | none => (intBits (elemWidth f) (if neg then (intRange f).1 else (intRange f).2), [6])
  | .value v => roundTo f rm ftz u v

/-- The value of a slot as block formation takes it (06_vector_rows R183, 07_accumulators R220): an out-of-range slot
gives the largest finite FP32 value of its sign with its event. -/
def accBlockValue (c : Nat) (a : Int) : Val × List Nat :=
  match accCase c a with
  | .nan => (.nan false, [])
  | .inf neg => (.inf neg, [])
  | .lost => (.nan false, [7])
  | .range neg => (.fin neg (2 ^ 24 - 1) 104 false, [6])
  | .value v => (v, [])

/-! ## Blocks (R106) -/

/-- The exponent of a value's leading bit. -/
def topExp (m : Nat) (e : Int) : Int := (m.log2 : Int) + e

/-- The larger of a known leading exponent and that of a value. -/
def maxTop (t : Option Int) (v : Val) : Option Int :=
  match v with
  | .fin _ m e _ =>
    if m = 0 then t
    else match t with
      | none => some (topExp m e)
      | some x => some (max x (topExp m e))
  | _ => t

/-- An integer limited to 0 … 254. -/
def clampScale (x : Int) : Nat := if x < 0 then 0 else if 254 < x then 254 else x.toNat

/-- A BFP-k mantissa (R106, R116): a magnitude above the largest of its sign gives that and counts saturation in every mode,
also where rounding would bring it back. -/
def bfpMantissa (k rm : Nat) (u : Nat) (v : Val) : Int × List Nat :=
  let lo : Int := -(2 ^ (k - 1) : Int)
  let hi : Int := 2 ^ (k - 1) - 1
  let above := match v with
    | .fin neg m e st =>
      let most := if neg then 2 ^ (k - 1) else 2 ^ (k - 1) - 1
      let (n, more) := roundAt 1 neg m e st 0 0
      most < n || (n == most && more)
    | _ => false
  match v with
  | .fin neg _ _ _ => if above then (if neg then lo else hi, [8, 4]) else roundInt rm lo hi u v
  | _ => roundInt rm lo hi u v

/-- block_scale(x, f): the scale of one block, its elements each with its own events, and the events of the block as a whole
(R106). `us` are the random words. -/
def blockScale (f : BitVec 5) (rm : Nat) (vs : List (Val × Nat)) : Nat × List (Nat × List Nat) × List Nat :=
  if vs.any (fun v => match v.1 with
      | .fin _ _ _ _ => false
      | _ => true) then
    (255, vs.map (fun _ => (0, [])), [5])
  else
    match vs.foldl (fun t v => maxTop t v.1) none with
    | none => (0, vs.map (fun _ => (0, [])), [])
    | some e =>
      let x := clampScale (e + 127 - (if f = 14 then 2 else if f = 15 then 8 else 0))
      let one (v : Val × Nat) : Nat × List Nat :=
        match v.1 with
        | .fin neg m e st =>
          if f = 14 ∨ f = 15 then
            (if f = 14 then e2m1 else e4m3).round rm false v.2 (.fin neg m (e - (x : Int) + 127) st)
          else
            let k := bfpBits f
            let (y, ev) := bfpMantissa k rm v.2 (.fin neg m (e - ((x : Int) - 127 - (k - 2))) st)
            (intBits (elemWidth f) y, ev)
        | _ => (0, [])
      (x, vs.map one, [])

/-! ## The canonical tree (R122) -/

/-- One level of the tree: pairs of neighbours combined, the lower first; `span` is the width of a child, `i` the index
of the pair. A node with one absent child passes the other. The node function is given (lo + hi) div 2. -/
def treeLevel {α : Type} (op : Nat → α → α → α × List Nat) (span : Nat) :
    Nat → List (Option α) → List (Option α) × List Nat
  | i, some l :: some r :: xs =>
    let (v, ev) := op (2 * span * i + span) l r
    let (ys, ev') := treeLevel op span (i + 1) xs
    (some v :: ys, ev ++ ev')
  | i, some l :: none :: xs => let (ys, ev) := treeLevel op span (i + 1) xs; (some l :: ys, ev)
  | i, none :: r :: xs => let (ys, ev) := treeLevel op span (i + 1) xs; (r :: ys, ev)
  | _, [x] => ([x], [])
  | _, [] => ([], [])

/-- The tree over some operands, level by level (at most 2^21 of them): its value, absent when all are, and the events
of its nodes. -/
def treeFrom {α : Type} (op : Nat → α → α → α × List Nat) : Nat → Nat → List (Option α) → Option α × List Nat
  | 0, _, xs => ((xs.head?).getD none, [])
  | fuel + 1, span, xs =>
    match xs with
    | [] => (none, [])
    | [x] => (x, [])
    | xs =>
      let (ys, ev) := treeLevel op span 0 xs
      let (v, ev') := treeFrom op fuel (2 * span) ys
      (v, ev ++ ev')

/-- tree over a list of operands. -/
def canonicalTree {α : Type} (op : Nat → α → α → α × List Nat) (xs : List (Option α)) : Option α × List Nat :=
  treeFrom op 22 1 xs

/-! ## Philox4x32-10 (R115, R126) -/

/-- One round of Philox4x32. -/
def philoxRound (x : Nat × Nat × Nat × Nat) (k0 k1 : Nat) : Nat × Nat × Nat × Nat :=
  let (x0, x1, x2, x3) := x
  let p0 := 0xD2511F53 * x0
  let p1 := 0xCD9E8D57 * x2
  let xor3 (a b c : Nat) := Nat.xor (Nat.xor a b) c
  (xor3 (p1 / 2 ^ 32) x1 k0, p1 % 2 ^ 32, xor3 (p0 / 2 ^ 32) x3 k1, p0 % 2 ^ 32)

/-- `n` rounds with the key schedule. -/
def philoxRounds : Nat → Nat × Nat × Nat × Nat → Nat → Nat → Nat × Nat × Nat × Nat
  | 0, x, _, _ => x
  | n + 1, x, k0, k1 =>
    philoxRounds n (philoxRound x k0 k1) ((k0 + 0x9E3779B9) % 2 ^ 32) ((k1 + 0xBB67AE85) % 2 ^ 32)

/-- The generator's word for element `e`, from the draw counter, lidx, rank id, the counter word x3 and the job seed. -/
def philoxAt (draw lidx rank x3 seed e : Nat) : Nat :=
  let x1 := draw / 2 ^ 32 % 2 ^ 24 * 2 ^ 8 + e / 4 % 2 ^ 8
  let y := philoxRounds 10 (draw % 2 ^ 32, x1, lidx % 2 ^ 7 * 2 ^ 20 + rank % 2 ^ 20, x3 % 2 ^ 32)
    (seed % 2 ^ 32) (seed / 2 ^ 32 % 2 ^ 32)
  match e % 4 with
  | 0 => y.1
  | 1 => y.2.1
  | 2 => y.2.2.1
  | _ => y.2.2.2

/-- philox_word(e) of a stream. -/
def philoxWord (draw lidx rank strm seed e : Nat) : Nat := philoxAt draw lidx rank (strm % 16) seed e

/-! ## Events -/

/-- A list of event classes as counts (class, count). -/
def tally (ev : List Nat) : List (Nat × Nat) :=
  ((List.range 16).map (fun k => (k, ev.count k))).filter (fun c => c.2 != 0)

end Sys2Proof.Machine
end

