-- ==== Sys2Proof/Machine/Special.lean ====
section
/-! DEFINITION. The exact functions behind the special functions of 06_vector_rows R199, R200 and Table 14, the division
of finalize and the scale of the triple combine (04_numbers R123, R124). A function's value is enclosed to far more bits
than any rounding of a 24-bit argument needs (log entry 15): the result is `.fin` with `st` set, or exact. -/

namespace Sys2Proof.Machine

/-- The fraction bits of the fixed-point values of this file. -/
def fixW : Nat := 1024

/-- 1.0 in fixed point. -/
def fixOne : Nat := 2 ^ fixW

/-- The square root of a natural number by Newton's steps from above. -/
def isqrtFrom (n : Nat) : Nat → Nat → Nat
  | 0, y => y
  | fuel + 1, y =>
    let z := (y + n / y) / 2
    if z < y then isqrtFrom n fuel z else y

/-- floor(√n). -/
def isqrt (n : Nat) : Nat := if n = 0 then 0 else isqrtFrom n 64 (2 ^ (n.log2 / 2 + 1))

/-- The alternating series of arctan(1/x) in units of 2^-w: `t` is the current power over x^(2j+1). -/
def arctanSum (x : Nat) : Nat → Nat → Nat → Int
  | 0, _, _ => 0
  | fuel + 1, j, t => (t / (2 * j + 1) : Nat) - arctanSum x fuel (j + 1) (t / (x * x))

/-- π in units of 2^-w (Machin's formula), for w up to 1,300. -/
def piAt (w : Nat) : Nat :=
  let t := 2 ^ (w + 64)
  ((16 * arctanSum 5 320 0 (t / 5) - 4 * arctanSum 239 100 0 (t / 239)) / 2 ^ 64).toNat

/-- The series of artanh(z) = z + z³/3 + …, z = `t` in fixed point. -/
def artanhSum (z2 : Nat) : Nat → Nat → Nat → Nat
  | 0, _, _ => 0
  | fuel + 1, j, t => t / (2 * j + 1) + artanhSum z2 fuel (j + 1) (t * z2 / fixOne)

/-- ln of a fixed-point value in [1, 2). -/
def lnFix (m : Nat) : Nat :=
  let z := (m - fixOne) * fixOne / (m + fixOne)
  2 * artanhSum (z * z / fixOne) 330 0 z

/-- ln 2 = 2 · artanh(1/3). -/
def ln2Fix : Nat := 2 * artanhSum (fixOne / 9) 330 0 (fixOne / 3)

/-- The series of e^r, `t` its current term. -/
def expSum (r : Nat) : Nat → Nat → Nat → Nat
  | 0, _, _ => 0
  | fuel + 1, j, t => t + expSum r fuel (j + 1) (t * r / fixOne / j)

/-- e^r in fixed point for r in [0, ln 2). -/
def expFix (r : Nat) : Nat := expSum r 240 1 fixOne

/-- e^y as (fixed-point value in [1, 2), power of two) for a fixed-point y. -/
def expInt (y : Int) : Nat × Int :=
  let k := y / (ln2Fix : Int)
  (expFix (y - k * ln2Fix).toNat, k)

/-- The same in fixed point. -/
def expAt (y : Int) : Nat :=
  let (m, k) := expInt y
  if 0 ≤ k then m * 2 ^ k.toNat else m / 2 ^ (-k).toNat

/-- The alternating series with the terms of sin (j = 2) or cos (j = 1): each term is the one before times r² over
j(j + 1). -/
def trigSum (w r2 : Nat) : Nat → Nat → Nat → Int
  | 0, _, _ => 0
  | fuel + 1, j, t => (t : Int) - trigSum w r2 fuel (j + 2) (t * r2 / 2 ^ w / (j * (j + 1)))

/-- The series Σ (−1)^j x^(2j+1) / (j! (2j+1)), `t` = x^(2j+1)/j!. -/
def erfSum (x2 : Nat) : Nat → Nat → Nat → Int
  | 0, _, _ => 0
  | fuel + 1, j, t => (t / (2 * j + 1) : Nat) - erfSum x2 fuel (j + 1) (t * x2 / fixOne / (j + 1))

/-- m · 2^e in fixed point, truncated below 2^-w. -/
def toFix (w : Nat) (m : Nat) (e : Int) : Nat :=
  let k := e + w
  if 0 ≤ k then m * 2 ^ k.toNat else m / 2 ^ (-k).toNat

/-- A value strictly between `x` and `x + 1` units of 2^-w. -/
def fixVal (w : Nat) (x : Int) : Val :=
  if 0 ≤ x then .fin false x.toNat (-(w : Int)) true else .fin true (-x - 1).toNat (-(w : Int)) true

/-- A value of sign `neg` whose magnitude is just below 1. -/
def belowOne (neg : Bool) : Val := .fin neg (fixOne - 1) (-(fixW : Int)) true

/-- A magnitude in (0, 2^-1024). -/
def aboveZero (neg : Bool) : Val := .fin neg 0 (-(fixW : Int)) true

/-- Whether m · 2^e ≥ n. -/
def atLeast (m : Nat) (e : Int) (n : Nat) : Bool :=
  if 0 ≤ e then n ≤ m * 2 ^ (min e 64).toNat else n * 2 ^ (-e).toNat ≤ m

/-- 2^x for a finite x = ±m · 2^e. Beyond ±2,000 every result is the one at that bound. -/
def exp2V (neg : Bool) (m : Nat) (e : Int) : Val :=
  if atLeast m e 2000 then (if neg then aboveZero false else .fin false 1 2000 true)
  else
    let x : Int := if neg then -(toFix fixW m e : Int) else toFix fixW m e
    let k := x / (fixOne : Int)
    let r := (x - k * fixOne).toNat
    if r = 0 then .fin false 1 k false else .fin false (expFix (r * ln2Fix / fixOne)) (k - fixW) true

/-- log2 of m · 2^e, m > 0. -/
def log2V (m : Nat) (e : Int) : Val :=
  let b := m.log2
  let k : Int := e + b
  if m = 2 ^ b then .ofInt k
  else fixVal fixW (k * fixOne + (lnFix (m * fixOne / 2 ^ b) * fixOne / ln2Fix : Nat))

/-- The quotient n1/n2 of two natural numbers scaled by 2^e, n2 > 0. -/
def quotV (neg : Bool) (n1 n2 : Nat) (e : Int) : Val :=
  let t := n1 * 2 ^ 256
  .fin neg (t / n2) (e - 256) (t % n2 != 0)

/-- √(m · 2^e). -/
def sqrtV (m : Nat) (e : Int) : Val :=
  let (m, e) := if e % 2 = 0 then (m, e) else (2 * m, e - 1)
  let t := m * 2 ^ 512
  let r := isqrt t
  .fin false r (e / 2 - 256) (r * r != t)

/-- 1/√(m · 2^e), m > 0. -/
def rsqrtV (m : Nat) (e : Int) : Val :=
  let (m, e) := if e % 2 = 0 then (m, e) else (2 * m, e - 1)
  let t := 2 ^ 640
  let r := isqrt (t / m)
  .fin false r (-(e / 2) - 320) (m * r * r != t)

/-- sin (`co` = false) or cos of ±m · 2^e: x is reduced exactly by multiples of π/2 (R199). -/
def trigV (co neg : Bool) (m : Nat) (e : Int) : Val :=
  let w := 1280
  let half := piAt w / 2
  let x := toFix w m e
  let n := x / half
  let r := x % half
  let quad := n + (if co then 1 else 0)
  let r2 := r * r / 2 ^ w
  let v := if quad % 2 = 0 then trigSum w r2 200 2 r else trigSum w r2 200 1 (2 ^ w)
  .fin ((quad % 4 ≥ 2) ^^ (neg && !co)) v.toNat (-(w : Int)) true

/-- tanh of ±m · 2^e. -/
def tanhV (neg : Bool) (m : Nat) (e : Int) : Val :=
  if atLeast m e 64 then belowOne neg
  else
    let y := expAt (2 * toFix fixW m e : Nat)
    .fin neg ((y - fixOne) * fixOne / (y + fixOne)) (-(fixW : Int)) true

/-- 1/(1 + e^-x) of ±m · 2^e. -/
def sigmV (neg : Bool) (m : Nat) (e : Int) : Val :=
  if atLeast m e 512 then (if neg then aboveZero false else belowOne false)
  else
    let y := expAt (if neg then -(toFix fixW m e : Int) else toFix fixW m e)
    .fin false (y * fixOne / (y + fixOne)) (-(fixW : Int)) true

/-- erf of ±m · 2^e. -/
def erfV (neg : Bool) (m : Nat) (e : Int) : Val :=
  if atLeast m e 8 then belowOne neg
  else
    let x := toFix fixW m e
    let rootPi := isqrt (piAt fixW * fixOne)
    .fin neg (2 * (erfSum (x * x / fixOne) 500 0 x).toNat * fixOne / rootPi) (-(fixW : Int)) true

/-- The functions of MAJ 0x60, in the order of their minor codes. -/
inductive SpecialFn where
  | exp2 | log2 | rcp | rsq | sqrt | sin | cos | tanh | sigm | erf
  deriving DecidableEq, Repr

/-- The result of an invalid argument that is not a NaN (R200). -/
def badArg : Exact := (.nan false, [0, 13])

/-- F(x) before rounding, with the special arguments of Table 14. -/
def SpecialFn.apply (fn : SpecialFn) (v : Val) : Exact :=
  let one (neg : Bool) : Exact := (.fin neg 1 0 false, [])
  match fn, v with
  | _, .nan _ => nanResult false [v]
  | .exp2, .inf n => (if n then .zero else .inf false, [])
  | .exp2, .fin n m e _ => (exp2V n m e, [])
  | .log2, .inf n => if n then badArg else (.inf false, [])
  | .log2, .fin n m e _ => if m = 0 then (.inf true, [1]) else if n then badArg else (log2V m e, [])
  | .rcp, .inf n => (.fin n 0 0 false, [])
  | .rcp, .fin n m e _ => if m = 0 then (.inf n, [1]) else (quotV n 1 m (-e), [])
  | .rsq, .inf n => if n then badArg else (.zero, [])
  | .rsq, .fin n m e _ => if m = 0 then (.inf n, [1]) else if n then badArg else (rsqrtV m e, [])
  | .sqrt, .inf n => if n then badArg else (.inf false, [])
  | .sqrt, .fin n m e _ => if m = 0 then (v, []) else if n then badArg else (sqrtV m e, [])
  | .sin, .inf _ => badArg
  | .sin, .fin n m e _ => if m = 0 then (v, []) else (trigV false n m e, [])
  | .cos, .inf _ => badArg
  | .cos, .fin n m e _ => if m = 0 then one false else (trigV true n m e, [])
  | .tanh, .inf n => one n
  | .tanh, .fin n m e _ => if m = 0 then (v, []) else (tanhV n m e, [])
  | .sigm, .inf n => if n then (.zero, []) else one false
  | .sigm, .fin n m e _ => if m = 0 then (.fin false 1 (-1) false, []) else (sigmV n m e, [])
  | .erf, .inf n => one n
  | .erf, .fin n m e _ => if m = 0 then (v, []) else (erfV n m e, [])

/-! ## The attention triple (04_numbers R123, R124) -/

/-- exp2_cr on an FP32 pattern: 2^d rounded to nearest even; no event counts (R123, R126). -/
def exp2cr (d : Nat) : Nat :=
  match (SpecialFn.exp2.apply (decodeElem 12 false 127 d)).1 with
  | .nan _ => 0x7FC00000
  | v => (roundTo 12 0 false 0 v).1

/-- A triple: m, s and v as FP32 patterns. -/
structure Triple where
  m : Nat
  s : Nat
  v : List Nat
  deriving DecidableEq, Repr

/-- combine(l, r) (R123), with the events of the fma steps and of a masked combine. -/
def combine (l r : Triple) : Triple × List Nat :=
  let dec (x : Nat) := decodeElem 12 false 127 x
  let masked (t : Triple) : List Nat := if t.m = 0xFF800000 then [15] else []
  if (dec l.m).isNan || (dec r.m).isNan then
    ({ m := 0x7FC00000, s := 0x7FC00000, v := l.v.map (fun _ => 0x7FC00000) }, [])
  else
    let c := cmpV (dec l.m) (dec r.m)
    let (hi, lo) := match c with
      | .lt => (r, l)
      | _ => (l, r)
    let scale : Nat := match c with
      | .eq => 0x3F800000
      | _ => exp2cr (finish 12 0 false 0 (addV 0 (dec lo.m) (dec hi.m).negate)).1
    if scale = 0 then (hi, masked hi)
    else
      let s := fma32 scale lo.s hi.s
      let vs := (lo.v.zip hi.v).map (fun p => fma32 scale p.1 p.2)
      let t : Triple := { m := hi.m, s := s.1, v := vs.map (·.1) }
      (t, s.2 ++ vs.flatMap (·.2) ++ masked t)

/-- v/s of two FP32 patterns, rounded to nearest even (R124; 06_vector_rows R178 for NaN, ∞ and 0). -/
def div32 (v s : Nat) : Nat × List Nat :=
  let a := decodeElem 12 false 127 v
  let b := decodeElem 12 false 127 s
  finish 12 0 false 0 (match a, b with
    | .nan _, _ => nanResult false [a, b]
    | _, .nan _ => nanResult false [a, b]
    | .inf _, .inf _ => nanResult true [a, b]
    | .inf x, _ => (.inf (x ^^ b.sign), [])
    | _, .inf y => (.fin (a.sign ^^ y) 0 0 false, [])
    | .fin n1 m1 e1 _, .fin n2 m2 e2 _ =>
      if m1 = 0 then (.fin (n1 ^^ n2) 0 0 false, [])
      else (quotV (n1 ^^ n2) m1 m2 (e1 - e2), []))

/-- finalize of a triple (R124): the vector over s, +0 in every element when s is ±0. -/
def finalize (t : Triple) : List Nat × List Nat :=
  if t.s % 2 ^ 31 = 0 then (t.v.map (fun _ => 0), [])
  else
    let rs := t.v.map (fun v => div32 v t.s)
    (rs.map (·.1), rs.flatMap (·.2))

end Sys2Proof.Machine
end

