-- ==== Sys2Proof/Machine/Elements.lean ====
section
/-! DEFINITION. Rows, lanes and immediates read raw or as a format, conversion on read, lane activity and the result of a
vector instruction (04_numbers R110 to R115; 06_vector_rows R166, R168, R171 to R175; 10_queues R273, R274). -/

namespace Sys2Proof.Machine

/-- The lowest `n` elements of width `w`, lane 0 first (00_scope R4). -/
def elems (w : Nat) : Nat → Nat → List Nat
  | 0, _ => []
  | n + 1, d => d % 2 ^ w :: elems w n (d / 2 ^ w)

/-- Elements packed, the first lowest. -/
def packElems (w : Nat) : List Nat → Nat
  | [] => 0
  | x :: xs => x % 2 ^ w + 2 ^ w * packElems w xs

/-- The pattern an operand tagged NONE gives in each lane (R111). -/
def zeroOf (f : BitVec 5) : Nat := if f = 25 then 0xFF800000 else 0

/-- Block scale `j` of a scale record. -/
def scaleAt (scales : BitVec 256) (j : Nat) : Nat := scales.toNat / 2 ^ (8 * j) % 256

/-- The elements of a row in its own format, and the same as values (R99 to R105); `ftz` as in R103. -/
def rowElems (r : Row) : List Nat := elems (elemWidth r.md.tag) (lanes r.md.tag) r.data.toNat

/-- The values of some elements of format `f`, with the block scales of their blocks. -/
def valuesOf (f : BitVec 5) (ftz : Bool) (scales : BitVec 256) (xs : List Nat) : List Val :=
  xs.zipIdx.map (fun (x, i) =>
    decodeElem f ftz (if blockScaled f then scaleAt scales (i / 32) else 127) x)

/-- Consecutive groups of `k` elements of a list of `n · k`. -/
def groupsOf {α : Type} (k : Nat) : Nat → List α → List (List α)
  | 0, _ => []
  | n + 1, xs => xs.take k :: groupsOf k n (xs.drop k)

/-- An operand read as format `f`: its elements, scales and anchor, the events that count once (conversion on read,
poison read as zeros), those of each converted element, and those a converted block raises as a whole. -/
structure Opnd where
  f : BitVec 5
  el : List Nat
  scales : BitVec 256 := 0
  anchor : BitVec 16 := 0
  once : List Nat := []
  byLane : List (List Nat) := []
  byBlock : List (List Nat) := []
  deriving DecidableEq, Repr

/-- The events an operand counts when the lanes marked in `used` use its elements (R110). -/
def Opnd.events (o : Opnd) (used : List Bool) : List Nat :=
  o.once ++ ((used.zip o.byLane).flatMap (fun (u, ev) => if u then ev else []))
    ++ ((groupsOf 32 o.byBlock.length used).zip o.byBlock).flatMap (fun (us, ev) => if us.any id then ev else [])

/-- The events when every element counts (R110: operands not read lane by lane). -/
def Opnd.allEvents (o : Opnd) : List Nat := o.once ++ o.byLane.flatten ++ o.byBlock.flatten

/-- The values of an operand's elements. -/
def Opnd.vals (o : Opnd) (ftz : Bool) : List Val := valuesOf o.f ftz o.scales o.el

/-- An operand of zeros: tag NONE (R111), or a field that reads as zero. -/
def zeroOpnd (f : BitVec 5) (once : List Nat := []) : Opnd :=
  { f := f, el := List.replicate (lanes f) (zeroOf f), once := once }

/-- Values formed into blocks of 32 by R106: elements with their events, scales, and the events of each block. -/
def formBlocks (f : BitVec 5) (rm : Nat) (vs : List (Val × Nat)) : List (Nat × List Nat) × BitVec 256 × List (List Nat) :=
  let bs : List (Nat × List (Nat × List Nat) × List Nat) := (groupsOf 32 (vs.length / 32) vs).map (blockScale f rm)
  (bs.flatMap (fun b => b.2.1), BitVec.ofNat 256 (packElems 8 (bs.map (fun b => b.1))), bs.map (fun b => b.2.2))

/-- The source elements of a row as values for another format, with the events of reading them: a signalling NaN counts
invalid and signalling NaN (R102); an ACC96 slot gives its block value (06_vector_rows R183). -/
def sourceValues (r : Row) (ftz : Bool) : List (Val × List Nat) :=
  let t := r.md.tag
  if t = 23 then (rowElems r).map (fun c => accBlockValue c r.md.anchor.toInt)
  else (valuesOf t ftz r.md.scales (rowElems r)).map (fun v => (v, snanEvents [v]))

/-- row_as(x, f) for a row of another tag than f, neither being NONE, KEY64 or TRIPLE (R112); conversions to ACC96 are
placed at anchor `a`; `ftz` flushes what it reads and what it converts (R103). -/
def rowAs (r : Row) (f : BitVec 5) (a : Int := 0) (ftz : Bool := false) : Opnd :=
  let t := r.md.tag
  let n := lanes f
  if f = 23 then
    let rs : List (Nat × List Nat) := (sourceValues r ftz).map (fun (v, ev) => let (c, ev') := accAdd 0 v a; (c, ev ++ ev'))
    { f := f, el := (rs.map Prod.fst ++ List.replicate n 0).take n, byLane := (rs.map (·.2)).take n,
      anchor := BitVec.ofInt 16 a }
  else if blockScaled f then
    let vs := (sourceValues r ftz ++ List.replicate n (Val.zero, [])).take n
    let (el, sc, ev) := formBlocks f 0 (vs.map (fun v => (v.1, 0)))
    { f := f, el := el.map Prod.fst, scales := sc, byLane := (vs.zip el).map (fun (v, e) => v.2 ++ e.2), byBlock := ev }
  else
    let rs : List (Nat × List Nat) := if t = 23 then (rowElems r).map (fun c => accOut f 0 ftz 0 c r.md.anchor.toInt)
      else (valuesOf t ftz r.md.scales (rowElems r)).map (convertTo f 0 ftz 0)
    { f := f, el := (rs.map Prod.fst ++ List.replicate n 0).take n, byLane := (rs.map (·.2)).take n }

/-- A raw operand: a row with the events that count once (R166). -/
abbrev Raw := Row × List Nat

/-- A row's poison on an active read (R166): zeros with event 12, or cause 0x080. -/
def poisonCheck (r : Row) : Except Cause Raw :=
  if r.md.poison then (if r.md.zs then .ok ({}, [12]) else .error 0x080) else .ok (r, [])

/-- An element of format `f` as an operand under `ftz`: a subnormal of tag 8, 9 or 10 is zero of its sign (04_numbers
R103). -/
def flushElem (f : BitVec 5) (ftz : Bool) (x : Nat) : Nat :=
  match (if ftz && ftzTag f then floatFormat f else none) with
  | some p => if x / 2 ^ p.fw % 2 ^ p.ew = 0 then x / 2 ^ (p.ew + p.fw) * 2 ^ (p.ew + p.fw) else x
  | none => x

/-- A raw operand read as format `f` under `ftm` and the instruction's `ftz` (R103, R110, R111). -/
def readAs (f : BitVec 5) (ftm : Bool) (x : Raw) (ftz : Bool := false) : Except Cause Opnd :=
  let t := x.1.md.tag
  if t = f then
    .ok { f := f, el := (rowElems x.1).map (flushElem f ftz), scales := x.1.md.scales, anchor := x.1.md.anchor, once := x.2 }
  else if t = 0 then .ok (zeroOpnd f x.2)
  else if 24 ≤ t.toNat || 24 ≤ f.toNat || ftm then .error 0x00D
  else let o := rowAs x.1 f 0 ftz; .ok { o with once := 11 :: x.2 }

/-! ## Lanes (10_queues R273, R274) -/

/-- The station a stream taps and places at (01_device Table 3); BK's is that of its group. -/
def stationOf (k : Nat) : Nat :=
  match k with
  | 2 => 1
  | 3 => 3
  | 4 => 7
  | 5 => 5
  | 6 => 9
  | 8 => 13
  | _ => 0

/-- Whether a value on its lane is at `station` in tc `t` (01_device R16): k = 1 … 15 tc after its placement. -/
def LaneVal.isAt (v : LaneVal) (aw : Bool) (n : BitVec 3) (station t : Nat) : Bool :=
  let k := t - v.tc
  v.aw == aw && v.n == n && v.tc < t && k ≤ 15
    && station == (if aw then (v.station + 16 - k) % 16 else (v.station + k) % 16)

/-- The value a tap finds. -/
def Tile.tap (t : Tile) (aw : Bool) (n : BitVec 3) (station tc : Nat) : Option Row :=
  (t.lanes.find? (fun v => v.isAt aw n station tc)).map (·.v)

/-- A row or lane operand of the issuing word read raw in tc `tc`. -/
def State.rawAt (s : State) (x : Sel) (station tc : Nat) : Except Cause Raw :=
  match x with
  | .v n => poisonCheck (nth s.curTile.rows (s.strm.physV n) {})
  | .lane aw n =>
    match s.curTile.tap aw n station tc with
    | some r => poisonCheck r
    | none => .error 0x050
  | _ => .ok ({}, [])

/-- The same in the issue tc, at the issuing stream's station. -/
def State.raw (s : State) (x : Sel) : Except Cause Raw := s.rawAt x (stationOf s.strmNo) s.tc

/-- An immediate or literal as elements of format `f` (R69, R70): the same in every lane, its events once for each lane
that receives it. -/
def scalarOpnd (f : BitVec 5) (x : Sel) (c : Third) : Opnd :=
  let (e, ev) : Nat × List Nat := match x, c with
    | .imm v, _ => convertTo f 0 false 0 (Val.ofInt v.toInt)
    | _, .lit w =>
      if f = 13 then convertTo 13 0 false 0 (decodeElem 12 false 127 w.toNat)
      else if f = 4 then ((w.signExtend 64).toNat, [])
      else (w.toNat % 2 ^ elemWidth f, [])
    | _, _ => (0, [])
  { f := f, el := List.replicate (lanes f) e, byLane := List.replicate (lanes f) ev }

/-- An element operand of the issuing word read as `f` (R171, R173); a field that holds 0xF00 reads as zero. -/
def State.opnd (s : State) (x : Sel) (c : Third) (f : BitVec 5) (ftz : Bool := false) : Except Cause Opnd :=
  match x with
  | .v _ | .lane _ _ => match s.raw x with
    | .ok r => readAs f s.strm.ftm r ftz
    | .error e => .error e
  | .imm _ | .lit => .ok (scalarOpnd f x c)
  | _ => .ok (zeroOpnd f)

/-- Two readings of one word: the lower of their causes (R74). -/
def both {α β : Type} (a : Except Cause α) (b : Except Cause β) : Except Cause (α × β) :=
  match a, b with
  | .ok x, .ok y => .ok (x, y)
  | .error c, .ok _ => .error c
  | .ok _, .error c => .error c
  | .error c, .error d => .error (if c.toNat ≤ d.toNat then c else d)

/-- The cause of a reading. -/
def causeIn {α : Type} (x : Except Cause α) : List Hazard :=
  match x with
  | .ok _ => []
  | .error c => [(c, 0)]

/-! ## Lane activity (R168) -/

/-- pos(i, f), of the block's first element in a block-scaled format. -/
def posOf (f : BitVec 5) (i : Nat) : Nat :=
  (if blockScaled f then i / 32 * 32 else i) * 512 / lanes f

/-- Which lanes of format `f` a lane mask makes active. -/
def activeLanes (f : BitVec 5) (g : QReg) : List Bool := (List.range (lanes f)).map (fun i => g.getLsbD (posOf f i))

/-- A position mask from truth values by lane (R181). -/
def lanesToQ (f : BitVec 5) (bs : List Bool) : QReg :=
  BitVec.ofNat 512 (packElems 1 (bs.flatMap (fun b => List.replicate (512 / lanes f) (if b then 1 else 0))))

/-! ## Results (R175) -/

/-- What a vector instruction computes: the result row's elements in format `f`, its scales and anchor, the positions at
which it is written, and the events. -/
structure VOut where
  f : BitVec 5
  el : List Nat
  scales : BitVec 256 := 0
  anchor : BitVec 16 := 0
  act : QReg
  evs : List Nat
  deriving DecidableEq, Repr

/-- The block scales format `f` uses, of a scale record; a row's others are written as zero (04_numbers R100; log entry 76). -/
def usedScales (f : BitVec 5) (sc : BitVec 256) : BitVec 256 :=
  if blockScaled f then BitVec.ofNat 256 (sc.toNat % 2 ^ (8 * (lanes f / 32))) else 0

/-- A result row (R165). -/
def mkRow (f : BitVec 5) (el : List Nat) (scales : BitVec 256 := 0) (anchor : BitVec 16 := 0) : Row :=
  { data := BitVec.ofNat 4096 (packElems (elemWidth f) el)
    md := { tag := f, anchor := if f = 23 then anchor else 0, scales := usedScales f scales } }

/-- Elements of `old` where a lane is not active. -/
def keepElems (act : List Bool) (new old : List Nat) : List Nat :=
  (act.zip (new.zip old)).map (fun (on, x, y) => if on then x else y)

/-- Scales of `old` where a block is not active. -/
def keepScales (act : List Bool) (new old : BitVec 256) : BitVec 256 :=
  BitVec.ofNat 256 (packElems 8 ((groupsOf 32 (act.length / 32) act).zipIdx.map (fun (b, j) =>
    scaleAt (if b.headD false then new else old) j)))

/-- A result merged with what the destination holds (R175, R113, R166): `none` for a destination that keeps nothing. The
row that lands and the events of the merge, or the cause. Kept elements that the merge converts are converted with the
writing word's `ftz`. DEDUCED (log entry 33). -/
def mergeRow (res : Row) (act : QReg) (z ftm : Bool) (old : Option Row) (ftz : Bool := false) : Except Cause (Row × List Nat) :=
  let f := res.md.tag
  let on := activeLanes f act
  if on.all id then .ok (res, [])
  else
    let put (o : Opnd) : Row :=
      { data := BitVec.ofNat 4096 (packElems (elemWidth f) (keepElems on (rowElems res) o.el))
        md := { res.md with scales := if blockScaled f then keepScales on res.md.scales o.scales else 0 } }
    match (if z then none else old) with
    | none => .ok (put (zeroOpnd f), [])
    | some r =>
      match poisonCheck r with
      | .error c => .error c
      | .ok (r, once) =>
        let t := r.md.tag
        if t = f then
          if f = 23 ∧ r.md.anchor ≠ res.md.anchor then .error 0x00D
          else .ok (put { f := f, el := rowElems r, scales := r.md.scales }, once)
        else if t = 0 then .ok (put (zeroOpnd f), once)
        else if 24 ≤ t.toNat || 24 ≤ f.toNat || ftm then .error 0x00D
        else .ok (put (rowAs r f res.md.anchor.toInt ftz), 11 :: once)

/-- The write of a result to a row or a lane, `lat` tc from now, with the z and ftz of the word (R172, R175). -/
def State.vwrite (s : State) (lat : Nat) (d : Sel) (m : VMod) (station : Nat) (v : VOut) : State :=
  let r := mkRow v.f v.el v.scales v.anchor
  match d with
  | .v n => s.post lat [.row (s.strm.physV n) v.act m.z s.strm.ftm m.ftz r] (tally v.evs)
  | .lane aw n =>
    match mergeRow r v.act true false none with
    | .ok (r, _) => s.post lat [.lane aw n station r] (tally v.evs)
    | .error _ => s
  | _ => s

/-- The random word of element `e` of the issuing instruction (R115, R126). -/
def State.drawWord (s : State) (e : Nat) : Nat :=
  match s.core with
  | .tile b x k =>
    let y := s.bay b
    philoxWord s.strm.draw.toNat (y.lidxOf x) y.rankid.toNat k y.seed.toNat e
  | .steward _ => 0

/-- The state after an instruction that draws random words (R115). -/
def State.advanceDraw (s : State) (on : Bool) : State :=
  if on then s.setStrm { s.strm with draw := s.strm.draw + 1 } else s

/-- A vector word: `comp` computes its result at the positions where the guard is true, or gives the lowest cause its
operands raise. -/
def vecWord (ks : List Nat) (i : Instr) (h : Head) (lat : Nat) (d : Sel) (m : VMod) (draws : Bool)
    (comp : QReg → State → Except Cause VOut) (s : State) : Host.Outcome State Fault Refusal :=
  laneWord ks i h s (fun g s => causeIn (comp g s))
    (fun g s => match comp g s with
      | .ok v => (s.vwrite lat d m (stationOf s.strmNo) v).advanceDraw draws
      | .error _ => s)

/-- A function of up to three element lists applied to the active lanes (R174). -/
def lanewise (act : List Bool) (z0 : Nat) (a b c : List Nat) (fn : Nat → Nat → Nat → Nat → Nat × List Nat) :
    List Nat × List Nat :=
  let rs := ((act.zip (a.zip (b.zip c))).zipIdx).map (fun ((on, x, y, z), i) => if on then fn i x y z else (z0, []))
  (rs.map (·.1), rs.flatMap (·.2))

/-- The random word of lane `i` when rm is sr. -/
def State.srWord (s : State) (rm : BitVec 3) (i : Nat) : Nat := if rm = 4 then s.drawWord i else 0

end Sys2Proof.Machine
end

