-- ==== Sys2Proof/Machine/Memory.lean ====
section
/-! DEFINITION. Global memory: physical locations, page walks, homes, die caches, line caches with their dirty-line FIFO,
uncorrectable lines and the cluster fault queue (08_memories R240 to R249, R409; 09_ordering R261, R266; 11_tables R292
to R297; 10_queues R286, R287). -/

namespace Sys2Proof.Machine

/-! ## Physical locations (11_tables R292) -/

/-- The tier of a location. -/
def tierOf (loc : Nat) : Nat := loc / 2 ^ 52

/-- The tier-relative address of a location. -/
def paOf (loc : Nat) : Nat := loc % 2 ^ 52

/-- The bound of a tier: 576 GB of HBM4E, 1,536 GB of LPDDR (01_device Table 4), the recorded sizes of the other two. -/
def State.tierSize (s : State) (tier : Nat) : Nat :=
  match tier with
  | 0 => 576000000000
  | 1 => 1536000000000
  | 2 => s.cxlSize
  | _ => s.compSize

/-- Whether `n` bytes at `loc` lie within its tier. -/
def State.locOk (s : State) (loc n : Nat) : Bool := loc < 2 ^ 54 && paOf loc + n ≤ s.tierSize (tierOf loc)

/-- The die of a location's home die cache (08_memories Table 7). -/
def dieOf (loc : Nat) : Nat :=
  if tierOf loc = 0 then paOf loc / 4096 % 12 / 3 else paOf loc / 4096 % 4

/-- Whether a location's home agent is its home die cache: HBM and LPDDR (09_ordering R252). -/
def dieHomed (loc : Nat) : Bool := tierOf loc ≤ 1

/-! ## Lines -/

/-- The line `no` of memory. -/
def State.memLine (s : State) (no : Nat) : Line :=
  { no := no, data := BitVec.ofNat 1024 (readLe s.mem (128 * no) 128), bad := s.badLines.contains no }

/-- Whether a cached line is dirty. -/
def Line.dirty (l : Line) : Bool := l.mask != 0

/-- A line in a cache. -/
def lineIn (c : List Line) (no : Nat) : Option Line := c.find? (fun l => l.no == no)

/-- A cache without line `no`. -/
def dropLine (c : List Line) (no : Nat) : List Line := c.filter (fun l => l.no != no)

/-- A cache with line `l` as the most recently used. -/
def keepLine (c : List Line) (l : Line) : List Line := l :: dropLine c l.no

/-- Bytes `off` to `off + bs.length - 1` of a line replaced. -/
def mergeLine (d : BitVec 1024) (off : Nat) (bs : List Byte) : BitVec 1024 :=
  let m := 2 ^ (8 * bs.length)
  let p := 2 ^ (8 * off)
  BitVec.ofNat 1024 (d.toNat % p + leNat bs * p + d.toNat / (p * m) * (p * m))

/-- The bytes of a line that a write of `n` bytes at `off` changes. -/
def byteMask (off n : Nat) : BitVec 128 := BitVec.ofNat 128 ((2 ^ n - 1) * 2 ^ off)

/-- `old` with the bytes of `new` that `mask` names. -/
def mergeMasked (old new : BitVec 1024) (mask : BitVec 128) : BitVec 1024 :=
  BitVec.ofNat 1024 (leNat ((List.range 128).map (fun i =>
    if mask.getLsbD i then new.extractLsb' (8 * i) 8 else old.extractLsb' (8 * i) 8)))

/-- A cached line with the bytes `bs` written at `off`, and those bytes no longer dirty. -/
def Line.cleanMerge (l : Line) (off : Nat) (bs : List Byte) : Line :=
  { l with data := mergeLine l.data off bs, mask := l.mask &&& ~~~byteMask off bs.length, bad := false }

/-- The line a write-back of `l` leaves at the level that held `base`: the bytes this copy wrote, and no others (08_memories
R242); an uncorrectable line is replaced whole (R409). -/
def Line.over (l base : Line) : BitVec 1024 := if base.bad then l.data else mergeMasked base.data l.data l.mask

/-- A copy of a line whose unreadable bytes are taken as zeros: all that it has not written itself, and every byte of one that is
uncorrectable (R409). -/
def Line.zeroed (l : Line) : Line :=
  if l.bad then { l with data := 0, mask := 0, bad := false } else { l with data := mergeMasked 0 l.data l.mask }

/-- Bytes of a line. -/
def lineBytes (d : BitVec 1024) (off n : Nat) : List Byte := leBytes n (d.toNat / 2 ^ (8 * off))

/-- The line of the home die cache that holds `no`, when it holds it. -/
def State.dieLine (s : State) (no : Nat) : Option Line := lineIn (nth s.dies (dieOf (128 * no)) []) no

/-- A snapshot with a 64 KiB page marked as written since its images (14_contexts R366). -/
def Snapshot.mark (page : Nat) (z : Snapshot) : Snapshot :=
  let add (ps : List Nat) := if ps.contains page then ps else page :: ps
  { z with since := add z.since, after := if z.written then add z.after else z.after }

/-- The state after a write of line `no` that reaches a die cache or memory, with its page marked (R366). -/
def State.wrote (s : State) (no : Nat) : State := { s with snapshots := s.snapshots.map (Snapshot.mark (no / 512)) }

/-- The state with a whole line stored in memory: good from then on (R409). -/
def State.setMemLine (s : State) (no : Nat) (d : BitVec 1024) : State :=
  let s := s.wrote no
  { s with mem := writeBytes s.mem (128 * no) (leBytes 128 d.toNat), badLines := s.badLines.filter (· != no) }

/-- The state after a cached line's dirty bytes have been written back to memory. -/
def State.lineToMem (s : State) (l : Line) : State :=
  if l.dirty then s.setMemLine l.no (l.over (s.memLine l.no)) else s

/-- The lines a die cache of 128 MiB holds (01_device Table 4). -/
def dieLines : Nat := 2 ^ 20

/-- The line a die cache evicts: that of the lowest EV, and among those the least recently used (Table 8). -/
def victim (c : List Line) : Option Line :=
  c.foldl (fun v l => match v with
    | some u => some (if l.ev.toNat ≤ u.ev.toNat then l else u)
    | none => some l) none

/-- The state with a line placed in its home die cache, as its most recently used; a full cache evicts another. -/
def State.placeDie (s : State) (l : Line) : State :=
  let d := dieOf (128 * l.no)
  let c := dropLine (nth s.dies d []) l.no
  match if c.length < dieLines then none else victim c with
  | none => { s with dies := put s.dies d (l :: c) }
  | some v => ({ s with dies := put s.dies d (l :: dropLine c v.no) }).lineToMem v

/-- The state after a write that leaves a line in its home die cache, with its page marked when the line is dirty (R366). -/
def State.setDieLine (s : State) (l : Line) : State := (if l.dirty then s.wrote l.no else s).placeDie l

/-- The state with line `no` dropped from its home die cache. -/
def State.dropDieLine (s : State) (no : Nat) : State :=
  let d := dieOf (128 * no)
  { s with dies := put s.dies d (dropLine (nth s.dies d []) no) }

/-- The line as its home agent holds it (R252): for HBM and LPDDR the home die cache's copy; a companion line's die-cache
copy is what the Caravan link keeps coherent; a CXL line's home is its memory. -/
def State.homeLine (s : State) (no : Nat) : Line :=
  if tierOf (128 * no) = 2 then s.memLine no else (s.dieLine no).getD (s.memLine no)

/-- The line as the level below the line caches holds it: the home die cache's copy, else memory. -/
def State.l2Line (s : State) (no : Nat) : Line := (s.dieLine no).getD (s.memLine no)

/-- `n` bytes at `loc` as their home agent holds them, and whether any line is uncorrectable. -/
def State.homeRead (s : State) (loc n : Nat) : List Byte × Bool :=
  let ls := (List.range ((loc + n + 127) / 128 - loc / 128)).map (fun i => s.homeLine (loc / 128 + i))
  ((ls.flatMap (fun l => lineBytes l.data 0 128)).drop (loc % 128) |>.take n, n != 0 && ls.any (fun l => l.bad))

/-- A number read little-endian at home, and whether the read met uncorrectable data. -/
def State.homeLe (s : State) (loc n : Nat) : Nat × Bool :=
  let r := s.homeRead loc n
  (leNat r.1, r.2)

/-- A line stored at its home agent (R252), of which `mask` names the bytes that change: in the die cache, dirty, when that is
its home and holds a copy; else in memory, where a die-cache copy of a companion line follows (R249). -/
def State.storeHome (s : State) (no : Nat) (d : BitVec 1024) (mask : BitVec 128) : State :=
  match s.dieLine no with
  | some l =>
    if dieHomed (128 * no) then s.setDieLine { l with data := d, mask := l.mask ||| mask, bad := false }
    else if tierOf (128 * no) = 2 then s.setMemLine no d
    else (s.setMemLine no d).setDieLine { l with data := d, mask := 0, bad := false }
  | none => s.setMemLine no d

/-- The segments of `bs` at `loc`, line by line: (line, offset, bytes). -/
def segments : Nat → Nat → List Byte → List (Nat × Nat × List Byte)
  | 0, _, _ => []
  | fuel + 1, loc, bs =>
    if bs.isEmpty then []
    else
      let n := 128 - loc % 128
      (loc / 128, loc % 128, bs.take n) :: segments fuel (loc + n) (bs.drop n)

/-- All segments. -/
def segs (loc : Nat) (bs : List Byte) : List (Nat × Nat × List Byte) := segments (bs.length / 128 + 2) loc bs

/-- One segment stored at its home agent (R409 with zeros for the unread part of an uncorrectable line). -/
def State.storeHomeSeg (s : State) (seg : Nat × Nat × List Byte) : State :=
  let l := s.homeLine seg.1
  s.storeHome seg.1 (mergeLine (if l.bad then 0 else l.data) seg.2.1 seg.2.2)
    (if l.bad then BitVec.allOnes 128 else byteMask seg.2.1 seg.2.2.length)

/-- Bytes written at their home agent. -/
def State.homeWrite (s : State) (loc : Nat) (bs : List Byte) : State := (segs loc bs).foldl State.storeHomeSeg s

/-! ## Pages (11_tables R296, R297) -/

/-- A page a walk found: the location of the byte addressed, the page's size in bytes, and the attributes of its entry. -/
structure Page where
  loc : Nat
  size : Nat
  w : Bool
  x : Bool
  cl : Nat
  wp : Nat
  ev : BitVec 2
  zs : Bool
  c : Bool
  co : BitVec 12
  deriving DecidableEq, Repr

/-- An imprecise fault: its cause and whether zeros are substituted (08_memories R248). -/
abbrev Imprecise := Cause × Bool

/-- Whether some of `n` bytes at `loc` lie in the HDM range of the LPDDR tier (19_boundaries R394). -/
def State.meetsHdm (s : State) (loc n : Nat) : Bool :=
  tierOf loc == 1 && paOf loc < (s.settings.hdmBase + s.settings.hdmSize) * 2 ^ 30 && s.settings.hdmBase * 2 ^ 30 < paOf loc + n
    && s.settings.hdmSize != 0

/-- One level of a walk after another: `loc` is the table, `levels` what remains (R297). No rank maps the HDM range
(19_boundaries R394): an entry that names it is malformed. DEDUCED (log entry 87). -/
def State.walkFrom (s : State) (va : Nat) : List Nat → Nat → Except Imprecise Page
  | [], _ => .error (0x092, false)
  | lv :: rest, loc =>
    let ix := if lv = 1 then va / 2 ^ 42 % 2 ^ 10 else if lv = 2 then va / 2 ^ 29 % 2 ^ 13 else va / 2 ^ 16 % 2 ^ 13
    if !s.locOk (loc + 8 * ix) 8 then .error (0x092, false)
    else
      let r := s.homeLe (loc + 8 * ix) 8
      let e := BitVec.ofNat 64 r.1
      let tier := (e.extractLsb' 12 2).toNat
      let frame := (e.extractLsb' 28 36).toNat
      if r.2 then .error (0x093, false)
      else if !e.getLsbD 0 then .error (0x090, false)
      else if e.getLsbD 3 then
        let off := if lv = 2 then va % 2 ^ 29 else va % 2 ^ 16
        let at_ := tier * 2 ^ 52 + frame * 2 ^ 16 + off
        if lv = 1 then .error (0x092, false)
        else if lv = 2 ∧ frame % 2 ^ 13 ≠ 0 then .error (0x092, false)
        else if e.extractLsb' 4 2 = 3#2 ∨ e.extractLsb' 6 2 = 3#2 ∨ e.getLsbD 15 then .error (0x092, false)
        else if !s.locOk at_ 1 || s.meetsHdm at_ 1 then .error (0x092, false)
        else .ok { loc := at_, size := if lv = 2 then 2 ^ 29 else 2 ^ 16, w := e.getLsbD 1, x := e.getLsbD 2, cl := (e.extractLsb' 4 2).toNat,
                   wp := (e.extractLsb' 6 2).toNat, ev := e.extractLsb' 9 2, zs := e.getLsbD 11, c := e.getLsbD 14,
                   co := e.extractLsb' 16 12 }
      else if lv = 3 ∨ 1 < tier then .error (0x092, false)
      else s.walkFrom va rest (tier * 2 ^ 52 + frame * 2 ^ 16)

/-- The walk of rank virtual address `va` through the tables at `root` (R243, R297). -/
def State.walkRoot (s : State) (root : Word) (va : Nat) : Except Imprecise Page :=
  if 2 ^ 52 ≤ va then .error (0x090, false) else s.walkFrom va [1, 2, 3] root.toNat

/-- The walk through the tables of the rank on bay `b`. -/
def State.walk (s : State) (b : Nat) (va : Nat) : Except Imprecise Page := s.walkRoot (s.bay b).ptbase va

/-! ## The line caches (R241, R261) -/

/-- The lines a tile's line cache can hold: 512 for each line-cache unit (08_memories R224, R225). -/
def Bay.lineCapacity (y : Bay) (x : Nat) : Nat :=
  let c := (y.cluster (x / 16)).carve
  512 * ((List.range 8).foldl (fun n g => n + (8 - spUnits c g - codeUnits c g)) 0)

/-- A performance event of bay `b` counted (13_counters R353). -/
def State.countBay (s : State) (b i : Nat) : State := s.setBay b ((s.bay b).count i)

/-- A line's dirty bytes written back to its home die cache, where they are dirty (R242, R261). -/
def State.toDie (s : State) (l : Line) : State :=
  let base := s.l2Line l.no
  s.setDieLine { base with data := l.over base, mask := if base.bad then BitVec.allOnes 128 else base.mask ||| l.mask,
                           ev := if (s.dieLine l.no).isSome then base.ev else l.ev, bad := false }

/-- A tile's line `no` with its bytes as `g` leaves them; the FIFO lists a line only while it is dirty (R261). -/
def Tile.editLine (t : Tile) (no : Nat) (g : Line → Line) : Tile :=
  let lines := t.lines.map (fun m => if m.no = no then g m else m)
  { t with lines := lines
           fifo := t.fifo.filter (fun n => n != no || ((lineIn lines no).map Line.dirty).getD false) }

/-- A line written back from a tile's line cache to its home die cache, where it is dirty; its copy stays, clean, and its
FIFO entry goes (R261). -/
def State.writeBackTile (s : State) (b x no : Nat) : State :=
  let t := s.tile b x
  match lineIn t.lines no with
  | some l => if l.dirty then (s.setTile b x (t.editLine no (fun m => { m with mask := 0 }))).toDie l else s
  | none => s

/-- A line of a tile's line cache written back if dirty, then dropped. -/
def State.dropTileLine (s : State) (b x no : Nat) : State :=
  let s := s.writeBackTile b x no
  let t := s.tile b x
  s.setTile b x { t with lines := dropLine t.lines no }

/-- A line placed in a tile's line cache; the least recently used line beyond its capacity is written back and dropped. -/
def State.allocTile (s : State) (b x : Nat) (l : Line) : State :=
  let t := s.tile b x
  let s := s.setTile b x { t with lines := keepLine t.lines l }
  let t := s.tile b x
  if t.lines.length ≤ (s.bay b).lineCapacity x then s
  else match t.lines.getLast? with
    | some v => s.dropTileLine b x v.no
    | none => s

/-- The entry of a line that becomes dirty: appended unless listed; a full FIFO first writes its oldest line back
(R261). -/
def State.pushFifo (s : State) (b x no : Nat) : State :=
  let t := s.tile b x
  if t.fifo.contains no then s
  else
    let s := if t.fifo.length < 512 then s
      else match t.fifo.head? with
        | some v => (s.writeBackTile b x v).countBay b 41
        | none => s
    let t := s.tile b x
    s.setTile b x { t with fifo := t.fifo ++ [no] }

/-- The line of a page's byte as gateway accesses of a tile read it, and the state after the allocations the page's CL allows
(R241); an uncorrectable line is allocated nowhere. Hits and misses are counted (13_counters Table 7). -/
def State.readLine (s : State) (b x : Nat) (p : Page) : Line × State :=
  let no := p.loc / 128
  let tileHas := if p.cl = 2 then lineIn (s.tile b x).lines no else none
  match tileHas with
  | some l =>
    let t := s.tile b x
    (l, (s.setTile b x { t with lines := keepLine t.lines l }).countBay b 38)
  | none =>
    if p.cl = 0 then (s.homeLine no, if dieHomed (128 * no) && (s.dieLine no).isNone then s.countBay b 40 else s)
    else
      let s := if p.cl = 2 then s.countBay b 39 else s
      let l := s.l2Line no
      let missed := (s.dieLine no).isNone
      let s := if missed then s.countBay b 40 else s
      if l.bad then (l, s)
      else
        let s := s.placeDie (if missed then { l with ev := p.ev } else l)
        let s := if p.cl = 2 then s.allocTile b x { l with mask := 0, ev := p.ev } else s
        (l, s)

/-- A segment written to a line of memory, and to the copies that the writing tile and the home die cache hold, without marking
those bytes dirty (R241, WP = through and around). Where memory or the die's copy is uncorrectable, the line is stored good, and
what the write does not cover reads zero from then on, at every level it meets (R409). -/
def State.writeThrough (s : State) (b x : Nat) (seg : Nat × Nat × List Byte) : State :=
  let no := seg.1
  let lost := (s.memLine no).bad || (s.l2Line no).bad
  let copy (l : Line) : Line := (if lost then l.zeroed else l).cleanMerge seg.2.1 seg.2.2
  let old := (s.dieLine no).map copy
  let s := s.setMemLine no (mergeLine (if lost then 0 else (s.memLine no).data) seg.2.1 seg.2.2)
  let s := match old with
    | some l => s.setDieLine l
    | none => s
  s.setTile b x ((s.tile b x).editLine no copy)

/-- The lines a write that reaches memory allocates at the levels CL allows, clean (R241, WP = through). -/
def State.allocThrough (s : State) (b x : Nat) (p : Page) (no : Nat) : State :=
  let s := if p.cl = 0 ∨ (s.dieLine no).isSome then s else s.setDieLine { s.memLine no with ev := p.ev }
  if p.cl = 2 ∧ (lineIn (s.tile b x).lines no).isNone then s.allocTile b x { s.l2Line no with mask := 0, ev := p.ev } else s

/-- The line that a write of page `p` meets: the innermost copy it changes, and with WP = through or around the line of memory
unless the home die cache's copy is the one that is uncorrectable (R409). -/
def State.metLine (s : State) (b x : Nat) (p : Page) (no : Nat) : Line :=
  if p.wp = 0 then
    match if p.cl = 2 then lineIn (s.tile b x).lines no else none with
    | some l => l
    | none => if p.cl = 0 then s.homeLine no else s.l2Line no
  else if (s.l2Line no).bad then s.l2Line no else s.memLine no

/-- A segment written at the innermost level CL allows, which it leaves dirty (R241, WP = back), over the line `l` it meets. -/
def State.writeBack (s : State) (b x : Nat) (p : Page) (l : Line) (seg : Nat × Nat × List Byte) : State :=
  let no := seg.1
  let d := mergeLine (if l.bad then 0 else l.data) seg.2.1 seg.2.2
  let mask := if l.bad then BitVec.allOnes 128 else byteMask seg.2.1 seg.2.2.length
  if p.cl = 0 then s.storeHome no d mask
  else if p.cl = 2 ∧ (s.bay b).lineCapacity x ≠ 0 then
    let had := (lineIn (s.tile b x).lines no).isSome
    let s := if had || (s.dieLine no).isSome || l.bad || seg.2.2.length == 128 then s
      else s.setDieLine { l with ev := p.ev }
    let s := s.pushFifo b x no
    s.allocTile b x { no := no, data := d, mask := (if had then l.mask else 0) ||| mask, ev := p.ev }
  else s.setDieLine { no := no, data := d, mask := ((s.dieLine no).map (·.mask)).getD 0 ||| mask, ev := p.ev }

/-- The state with a store's line-cache hit or miss counted, and the miss of a die cache that it reaches (13_counters Table 7; log
entry 18). -/
def State.countStore (s : State) (b x : Nat) (p : Page) (no : Nat) : State :=
  let hit := p.cl == 2 && (lineIn (s.tile b x).lines no).isSome
  let far := (p.cl != 0 || dieHomed (128 * no)) && (p.wp != 0 || !hit) && (s.dieLine no).isNone
  let s := if p.cl = 2 then s.countBay b (if hit then 38 else 39) else s
  if far then s.countBay b 40 else s

/-- What a write of a segment to a page leaves: the state and, when the line is uncorrectable and the write partial, the
imprecise fault (R241, R409). -/
def State.writeSeg (s : State) (b x : Nat) (p : Page) (seg : Nat × Nat × List Byte) : State × Option Imprecise :=
  let s := s.countStore b x p seg.1
  let l := s.metLine b x p seg.1
  let part := l.bad && seg.2.2.length != 128
  if part && !p.zs then (s, some (0x093, false))
  else
    let s' := match p.wp with
      | 0 => s.writeBack b x p l seg
      | 1 => (s.writeThrough b x seg).allocThrough b x p seg.1
      | _ => s.writeThrough b x seg
    (s', if part then some (0x093, true) else none)

/-! ## Accesses by rank virtual address -/

/-- `n` bytes at `va` read by a gateway access of tile `x` (R241): the bytes, the state, and the first fault with the
address it stands at. Of an image that meets several faults the first by address gives the record's cause, address and zs, where
R248 does not say which. DESIGN CHOICE (log entry 79). -/
def State.vaRead (s : State) (b x : Nat) : Nat → Nat → Nat → List Byte × State × Option (Imprecise × Nat)
  | 0, _, _ => ([], s, none)
  | fuel + 1, va, n =>
    if n = 0 then ([], s, none)
    else
      let k := min n (128 - va % 128)
      match s.walk b va with
      | .error f => ([], s, some (f, va))
      | .ok p =>
        let (l, s) := s.readLine b x p
        if l.bad then ([], s, some ((0x093, p.zs), va))
        else
          let (bs, s, f) := s.vaRead b x fuel (va + k) (n - k)
          (lineBytes l.data (p.loc % 128) k ++ bs, s, f)

/-- The bytes of an image of `n` bytes at `va`. -/
def State.imageRead (s : State) (b x va n : Nat) : List Byte × State × Option (Imprecise × Nat) :=
  s.vaRead b x (n / 128 + 2) va n

/-- The pieces of `bs` at `va`, each within one 128-byte line of the virtual space. -/
def vaPieces (va : Nat) (bs : List Byte) : List (Nat × List Byte) :=
  (segs va bs).map (fun (no, off, piece) => (128 * no + off, piece))

/-- One piece written through its page: a fault when it does not translate, may not be written, or its line is
uncorrectable; the pages of apertures are handled by the caller. -/
def State.vaWritePiece (s : State) (b x va : Nat) (bs : List Byte) : State × Option Imprecise :=
  match s.walk b va with
  | .error f => (s, some f)
  | .ok p =>
    if !p.w then (s, some (0x091, false)) else s.writeSeg b x p (p.loc / 128, p.loc % 128, bs)

/-! ## The cluster fault queue (10_queues R286, R287) -/

/-- A fault record (Table 7). -/
def faultRecord (addr : Word) (va : Nat) (cause : Cause) (tid kd : Nat) (zs : Bool) (rank : BitVec 20)
    (index dest tclk : Nat) : BitVec 256 :=
  BitVec.ofNat 256 (addr.toNat + va % 2 ^ 64 * 2 ^ 64 + cause.toNat * 2 ^ 128
    + (tid % 16 + kd % 64 * 16 + (if zs then 1024 else 0)) * 2 ^ 144
    + rank.toNat * 2 ^ 160 + index % 2 ^ 16 * 2 ^ 192 + dest % 2 ^ 16 * 2 ^ 208 + tclk % 2 ^ 32 * 2 ^ 224)

/-- The records appended in wc `wc`, after one more (15_traps R382, R383). -/
def freshen (wc : Nat) (r : Nat × Nat) : Nat × Nat := if r.1 = wc then (wc, r.2 + 1) else (wc, 1)

/-- A queue after a pop in wc `wc`: the oldest record goes when it stood there before that wc's appends (15_traps R382,
R383). -/
def popOld {α : Type} (wc : Nat) (r : Nat × Nat) (q : List α) : List α :=
  if (if r.1 = wc then r.2 else 0) < q.length then q.drop 1 else q

/-- A record appended to the fault queue of cluster `cl` of bay `b`, which makes cause 0x143 pending while it is there; at
a full queue the overflow count rises, saturating, and the device steward receives 0x144 (R287; 15_traps R382). -/
def State.queueFault (s : State) (b cl : Nat) (r : BitVec 256) : State :=
  let y := s.bay b
  let c := y.cluster cl
  if c.faults.length < 256 then
    s.setBay b ((y.setCluster cl { c with faults := c.faults ++ [r], fresh := freshen s.wc c.fresh }).count 42)
  else
    let ovf := if c.ovf = 0xFFFF#16 then c.ovf else c.ovf + 1
    (s.setBay b ((y.setCluster cl { c with ovf := ovf }).count 43)).notify 8 0x144

end Sys2Proof.Machine
end

