-- ==== Sys2Proof/Machine/Code.lean ====
section
/-! DEFINITION. Code objects and the code store: the ICO header, sections and function table (03_encoding R87 to R90), the
bodies of functions (02_execution R51), staging through the rank's page tables (11_tables R298), the carve-out's capacity
(05_control_registers R140) and liveness tables (11_tables R302). -/

namespace Sys2Proof.Machine

/-- `n` bytes of the code object of bay `b` at offset `off`, little-endian; 0 beyond its tier. Function table, successor list and
liveness table are read at the object's location, through no page table, and as the bytes stand where a line is uncorrectable; R298
does not say (DESIGN CHOICE, log entry 96). -/
def State.icoLe (s : State) (b off n : Nat) : Nat :=
  let loc := (s.bay b).ico.toNat + off
  if s.locOk loc n then (s.homeLe loc n).1 else 0

/-- A section table entry (R88). -/
structure Section where
  kind : Nat
  off : Nat
  size : Nat
  va : Nat
  deriving DecidableEq, Repr

/-- The first section of a type. -/
def State.icoSection (s : State) (b kind : Nat) : Option Section :=
  let tab := s.icoLe b 0x20 8
  let all := (List.range (s.icoLe b 0x18 4)).map (fun i =>
    let e := tab + 32 * i
    ({ kind := s.icoLe b e 2, off := s.icoLe b (e + 8) 8, size := s.icoLe b (e + 16) 8,
       va := s.icoLe b (e + 24) 8 } : Section))
  all.find? (fun c => c.kind == kind)

/-- A field of the function table entry of function `fn` (R89). -/
def State.fnField (s : State) (b fn off n : Nat) : Nat :=
  match s.icoSection b 3 with
  | some t => s.icoLe b (t.off + 64 * fn + off) n
  | none => 0

/-- The first word of stream `k`'s body in function `fn`, in words from the code section's start (R89). -/
def State.firstWord (s : State) (b fn k : Nat) : Option Nat :=
  let v := s.fnField b fn (4 * k) 4
  if v = 0xFFFFFFFF then none else some v

/-- Every first word of every body of the object. -/
def State.firstWords (s : State) (b : Nat) : List Nat :=
  (List.range (s.bay b).fnCount).flatMap (fun f => (List.range 9).filterMap (fun k => s.firstWord b f k))

/-- Where the body that begins at word `w` ends (02_execution R51). -/
def State.bodyEnd (s : State) (b w : Nat) : Nat :=
  let size := match s.icoSection b 1 with
    | some c => c.size / 16
    | none => 0
  (s.firstWords b).foldl (fun m v => if w < v ∧ v < m then v else m) size

/-- A word read for staging (R298): through a page with X = 1 that translates and holds good data. -/
def State.stageWord (s : State) (b va : Nat) : Option Code :=
  match s.walk b va with
  | .error _ => none
  | .ok p =>
    let r := s.homeLe p.loc 16
    if p.x && !r.2 then some (BitVec.ofNat 128 r.1) else none

/-- The words `w` to `e - 1` of the code section, staged; `none` when any read fails (R298). -/
def State.stageWords (s : State) (b va : Nat) : Nat → Nat → Option (List Code)
  | 0, _ => some []
  | n + 1, w =>
    match s.stageWord b (va + 16 * w) with
    | none => none
    | some c => (s.stageWords b va n (w + 1)).map (c :: ·)

/-- The rank virtual address of the first of the words `w` to `e - 1` of the code section whose staging read fails. -/
def State.stagingFault (s : State) (b va : Nat) : Nat → Nat → Option Nat
  | 0, _ => none
  | n + 1, w => if (s.stageWord b (va + 16 * w)).isNone then some (va + 16 * w) else s.stagingFault b va n (w + 1)

/-- The effective address of cause 0x087 (15_traps Table 2): that of the function's first word, in stream order, whose
staging read fails; 0 when none does (log entry 52). -/
def State.stageFault (s : State) (b fn : Nat) : Word :=
  match s.icoSection b 1 with
  | none => 0
  | some c => BitVec.ofNat 64 (((List.range 9).findSome? (fun k =>
      (s.firstWord b fn k).bind (fun w => s.stagingFault b c.va (s.bodyEnd b w - w) w))).getD 0)

/-- An entry of a liveness table (11_tables Table 6) at `at_`. -/
def State.liveEntry (s : State) (b at_ : Nat) : Live :=
  { off := s.icoLe b at_ 4
    masks := (List.range 9).map (fun k => BitVec.ofNat 64 (s.icoLe b (at_ + 8 + 8 * k) 8))
    rows := BitVec.ofNat 256 (s.icoLe b (at_ + 0x50) 32)
    q := BitVec.ofNat 64 (s.icoLe b (at_ + 0x70) 8)
    planes := BitVec.ofNat 2 (s.icoLe b (at_ + 0x78) 1) }

/-- The staged form of function `fn` (R89, R90, R302); `none` when a staging read fails. An offset of 0xFFFFFFFF is no
liveness table, as R89 says of streams and successors; for the table the manual does not say it (DESIGN CHOICE; log
entry 70). -/
def State.stageFn (s : State) (b fn : Nat) : Option Fn := do
  let c ← s.icoSection b 1
  let bodies ← (List.range 9).mapM (fun k =>
    match s.firstWord b fn k with
    | none => some (none : Option (List Code))
    | some w => (s.stageWords b c.va (s.bodyEnd b w - w) w).map some)
  let sl := s.fnField b fn 0x24 4
  let lt := s.fnField b fn 0x28 4
  some {
    fn := BitVec.ofNat 24 fn
    bodies := bodies
    size := s.fnField b fn 0x30 4
    entered := false
    succ := if sl = 0xFFFFFFFF then [] else
      (List.range (min 8 (s.icoLe b sl 1))).map (fun i => BitVec.ofNat 24 (s.icoLe b (sl + 4 + 4 * i) 3))
    live := if lt = 0xFFFFFFFF then [] else
      (List.range (s.icoLe b lt 4)).map (fun i => s.liveEntry b (lt + 16 + 128 * i)) }

/-- The bytes of code the carve-out of cluster `cl`'s tiles can hold (08_memories R225). -/
def Bay.codeCapacity (y : Bay) (cl : Nat) : Nat :=
  65536 * (List.range 8).foldl (fun n g => n + codeUnits (y.cluster cl).carve g) 0

/-- The bytes of some functions. -/
def codeBytes (fs : List Fn) : Nat := fs.foldl (fun n f => n + f.size) 0

/-- Whether a function of `size` bytes fits in cluster `cl` beside the functions entered since the last step boundary
(R140). -/
def Bay.codeFits (y : Bay) (cl size : Nat) : Bool :=
  codeBytes ((y.cluster cl).code.filter (·.entered)) + size ≤ y.codeCapacity cl

/-- The functions that CALLs of the bay enter: those called in this tc, and those awaited. -/
def Bay.claims (y : Bay) : List (BitVec 24) :=
  (y.joints.filterMap (fun j => match j.2.2 with
      | .call fn _ => some fn
      | _ => none)
    ++ y.entering.map (·.fn)).dedup

/-- The bytes of cluster `cl`'s code store that CALLs before one of `fn` claim: of functions not marked entered yet. -/
def State.claimed (s : State) (b cl : Nat) (fn : BitVec 24) : Nat :=
  ((s.bay b).claims.filter (fun g => g != fn && !((s.bay b).cluster cl).code.any (fun f => f.fn == g && f.entered))).foldl
    (fun n g => n + s.fnField b g.toNat 0x30 4) 0

/-- Whether `fn`, of `size` bytes, fits in every cluster beside the functions entered since the last step boundary (R140): it is one
of them, or it stands there and no other claims its place, or there is room for it. Of CALLs that do not fit together those later
in the order of 02_execution R49 do not (DESIGN CHOICE, log entry 89). -/
def State.fitsAll (s : State) (b : Nat) (fn : BitVec 24) (size : Nat) : Bool :=
  (List.range 8).all (fun cl => let n := s.claimed b cl fn
    ((s.bay b).cluster cl).code.any (fun f => f.fn == fn && f.entered)
      || ((s.bay b).hasFn cl fn && n == 0) || (s.bay b).codeFits cl (size + n))

/-- The size of a callee: that of a resident one, or of one as it is staged; `none` when a read of it fails (R298). -/
def State.calleeSize (s : State) (b : Nat) (fn : BitVec 24) : Option Nat :=
  if (s.bay b).resident fn then some (s.fnField b fn.toNat 0x30 4) else (s.stageFn b fn.toNat).map Fn.size

/-- Not yet entered functions evicted, the oldest staged first, until `size` more bytes fit (10_queues R288). -/
def evictFor (cap size : Nat) : List Fn → List Fn
  | [] => []
  | f :: fs =>
    if codeBytes (f :: fs) + size ≤ cap then f :: fs
    else if f.entered then f :: evictFor (cap - f.size) size fs
    else evictFor cap size fs

/-- The bay with a function placed in the code store of cluster `cl`. -/
def Bay.placeFn (y : Bay) (cl : Nat) (f : Fn) : Bay :=
  let c := y.cluster cl
  y.setCluster cl { c with code := evictFor (y.codeCapacity cl) f.size c.code ++ [f] }

/-- A cluster with a function marked entered since the last step boundary. -/
def Cluster.enterFn (c : Cluster) (fn : BitVec 24) : Cluster :=
  { c with code := c.code.map (fun f => if f.fn = fn then { f with entered := true } else f) }

/-- The bay with a function marked entered in every cluster. -/
def Bay.enterFn (y : Bay) (fn : BitVec 24) : Bay := { y with clusters := y.clusters.map (fun c => c.enterFn fn) }

/-- The outcome of staging `fn` into cluster `cl` of bay `b`: already resident, or placed; `none` when a read fails or it does
not fit (10_queues R288). -/
def State.stage (s : State) (b cl : Nat) (fn : BitVec 24) : Option State :=
  let y := s.bay b
  if y.hasFn cl fn then some s
  else match s.stageFn b fn.toNat with
    | none => none
    | some f => if y.codeFits cl f.size then some (s.setBay b (y.placeFn cl f)) else none

/-- The outcome of staging `fn` into every cluster that lacks it. -/
def State.stageAll (s : State) (b : Nat) (fn : BitVec 24) : Option State :=
  (List.range 8).foldl (fun s cl => s.bind (fun s => s.stage b cl fn)) (some s)

end Sys2Proof.Machine
end

