-- ==== Sys2Proof/Machine/StewardSpace.lean ====
section
/-! DEFINITION. The steward address space (05_control_registers R162, Table 18): local RAM, fault and request windows
(15_traps R382, R383), launch buffers, the power controller (19_boundaries R393, R398), the descriptor store (12_endpoints
R318) and physical memory. -/

namespace Sys2Proof.Machine

/-- Where a steward address leads. -/
inductive Place where
  | ram (a : Nat)
  | fault (b cl off : Nat)
  | request (b off : Nat)
  | launch (b off : Nat)
  | power (off : Nat)
  | store (off : Nat)
  | phys (loc : Nat)
  deriving DecidableEq, Repr

/-- The place of address `ea` for steward `k`; none when it is unmapped or out of its reach. -/
def placeOf (k ea : Nat) : Option Place :=
  let own (b : Nat) : Bool := k == 8 || k == b
  if ea < 0x80000 then some (.ram ea)
  else if 0xF0000000 ≤ ea ∧ ea < 0xF0004000 then
    let q := (ea - 0xF0000000) / 0x100
    let off := ea % 0x100
    if k = 8 then some (.fault (q / 8) (q % 8) off) else if q < 8 then some (.fault k q off) else none
  else if 0xF0008000 ≤ ea ∧ ea < 0xF0008800 then
    let b := (ea - 0xF0008000) / 0x100
    if own b then some (.request b (ea % 0x100)) else none
  else if 0xF0009000 ≤ ea ∧ ea < 0xF000A000 then
    let b := (ea - 0xF0009000) / 0x200
    if own b then some (.launch b (ea % 0x200)) else none
  else if 0xF1000000 ≤ ea ∧ ea < 0xF1000100 then (if k = 8 then some (.power (ea % 0x100)) else none)
  else if 0xF2000000 ≤ ea ∧ ea < 0xF2200000 then (if k = 8 then some (.store (ea - 0xF2000000)) else none)
  else if 2 ^ 63 ≤ ea ∧ ea < 2 ^ 63 + 2 ^ 54 then some (.phys (ea - 2 ^ 63))
  else none

/-- The oldest of some records, zero when there is none. -/
def headRecord (rs : List (BitVec 256)) : Nat := match rs with
  | [] => 0
  | r :: _ => r.toNat

/-- The 256 bytes of a fault window as a number (15_traps Table 4). -/
def Cluster.window (c : Cluster) : Nat :=
  headRecord c.faults + c.faults.length * 2 ^ (8 * 0x20) + c.ovf.toNat * 2 ^ (8 * 0x28)

/-- The bytes of a request window (15_traps Table 5). -/
def Bay.requestWindow (y : Bay) : Nat := headRecord y.sysq + y.sysq.length * 2 ^ (8 * 0x20)

/-- The bytes of a launch buffer: the record and the post word (R162). -/
def Bay.launchWindow (y : Bay) : Nat := leNat y.launch.toList + y.post.toNat * 2 ^ (8 * 0x100)

/-- pwrctl (19_boundaries Table 2). -/
def Power.ctl (p : Power) : Nat :=
  p.slew.toNat + (if p.ben then 2 ^ 11 else 0) + p.floor.toNat * 2 ^ 12 + p.cap.toNat * 2 ^ 24

/-- pwrst (19_boundaries Table 2). -/
def Power.st (p : Power) : Nat :=
  (if p.aligned then 1 else 0) + (if p.thr then 2 else 0) + (if p.bal then 4 else 0) + (if p.therm then 8 else 0)

/-- The 256 bytes of the power controller and the doorbell value. -/
def State.powerWindow (s : State) : Nat :=
  s.power.ctl + s.power.st * 2 ^ (8 * 0x08) + s.power.telbase.toNat * 2 ^ (8 * 0x18) + s.doorbell.toNat * 2 ^ (8 * 0x20)

/-- `n` bytes of a window at offset `off`. -/
def windowBytes (w off n : Nat) : Nat := w / 2 ^ (8 * off) % 2 ^ (8 * n)

/-- A window value with `n` bytes at `off` replaced by `v`. -/
def windowPut (w off n v : Nat) : Nat :=
  w % 2 ^ (8 * off) + v % 2 ^ (8 * n) * 2 ^ (8 * off) + w / 2 ^ (8 * (off + n)) * 2 ^ (8 * (off + n))

/-- `n` bytes a steward reads at `ea`, or the cause (R162). -/
def State.stewardLoad (s : State) (k ea n : Nat) : Except Cause Nat :=
  match placeOf k ea with
  | none => .error 0x081
  | some (.ram a) => .ok (readLe (s.steward k).ram a n)
  | some (.fault b cl off) => .ok (windowBytes ((s.bay b).cluster cl).window off n)
  | some (.request b off) => .ok (windowBytes (s.bay b).requestWindow off n)
  | some (.launch b off) => .ok (windowBytes (s.bay b).launchWindow off n)
  | some (.power off) => .ok (windowBytes s.powerWindow off n)
  | some (.store off) => .ok (readLe s.desc off n)
  | some (.phys loc) =>
    if s.locOk loc n then
      let r := s.homeLe loc n
      if r.2 then .error 0x141 else .ok r.1
    else .error 0x081

/-- The oldest fault record of a cluster removed, unless it was appended in this wc (15_traps R382). -/
def State.popFault (s : State) (b cl : Nat) : State :=
  let y := s.bay b
  let c := y.cluster cl
  s.setBay b (y.setCluster cl { c with faults := popOld s.wc c.fresh c.faults })

/-- The oldest SYSC record of a bay removed, unless it was appended in this wc (15_traps R383). -/
def State.popRequest (s : State) (b : Nat) : State :=
  let y := s.bay b
  s.setBay b { y with sysq := popOld s.wc y.sysFresh y.sysq }

/-- A write of pwrctl or telbase; slew outside 5 … 2,000 or cap outside 1,000 … 4,000 has no effect and raises cause
0x004 (19_boundaries R398). Other offsets hold nothing writable. -/
def State.powerWrite (s : State) (off : Nat) (v : Nat) : Except Cause State :=
  if off = 0 then
    let slew := v % 2 ^ 11
    let cap := v / 2 ^ 24 % 2 ^ 12
    if slew < 5 ∨ 2000 < slew ∨ cap < 1000 ∨ 4000 < cap then .error 0x004
    else
      let p := s.power
      .ok { s with power := { p with
        slew := BitVec.ofNat 11 slew
        ben := v / 2 ^ 11 % 2 == 1
        floor := BitVec.ofNat 12 (v / 2 ^ 12)
        cap := BitVec.ofNat 12 cap } }
  else if off = 0x18 then .ok { s with power := { s.power with telbase := BitVec.ofNat 64 v } }
  else .ok s

/-- A write of the post word: 1 posts the record, which the bay reads then and only then; anything else is ignored (R162; 11_tables
R293). -/
def Bay.writePost (y : Bay) (v : Nat) : Bay := if v = 1 then { y with post := 1, posted := y.launch } else y

/-- The state after steward `k` writes `n` bytes `v` at `ea`, or the cause (R162). -/
def State.stewardStore (s : State) (k ea n v : Nat) : Except Cause State :=
  match placeOf k ea with
  | none => .error 0x081
  | some (.ram a) =>
    let w := s.steward k
    .ok (s.setSteward k { w with ram := writeBytes w.ram a (leBytes n v) })
  | some (.fault b cl off) =>
    let y := s.bay b
    let c := y.cluster cl
    if off ≤ 0x30 ∧ 0x30 < off + n then .ok (s.popFault b cl)
    else if 0x28 ≤ off ∧ off < 0x2A then
      .ok (s.setBay b (y.setCluster cl { c with
        ovf := BitVec.ofNat 16 (windowPut c.ovf.toNat (off - 0x28) (min n (0x2A - off)) v) }))
    else .ok s
  | some (.request b off) => if off ≤ 0x30 ∧ 0x30 < off + n then .ok (s.popRequest b) else .ok s
  | some (.launch b off) =>
    let y := s.bay b
    if off < 0x100 then
      let w := windowPut (leNat y.launch.toList) off n v
      .ok (s.setBay b { y with launch := Vector.ofFn (fun i : Fin 256 => BitVec.ofNat 8 (w / 2 ^ (8 * i.val))) })
    else if off = 0x100 then .ok (s.setBay b (y.writePost (v % 2 ^ (8 * n))))
    else .ok s
  | some (.power off) =>
    let r := off / 8 * 8
    s.powerWrite r (windowPut (windowBytes s.powerWindow r 8) (off - r) n v)
  | some (.store off) => .ok { s with desc := writeBytes s.desc off (leBytes n v) }
  | some (.phys loc) => if s.locOk loc n then .ok (s.homeWrite loc (leBytes n v)) else .error 0x081

end Sys2Proof.Machine
end

