-- ==== Sys2Proof/Machine/Bank.lean ====
section
/-! DEFINITION. Bank groups and their slots, scalar bank access and the slot instructions: MAJ 0x20, 0x21 and 0x22
(08_memories R224 to R239), and LDL and STL on a steward core (05_control_registers R162). -/

namespace Sys2Proof.Machine

/-! ## Slots -/

/-- Slot `n` of group `g`; one nothing has written is a NONE slot (R228). -/
def Tile.slot (t : Tile) (g n : Nat) : Slot := (find t.slots (1024 * g + n)).getD {}

/-- The tile with a slot replaced; a slot in the launch state is not listed. -/
def Tile.setSlot (t : Tile) (g n : Nat) (x : Slot) : Tile :=
  { t with slots := if x = {} then eraseAt t.slots (1024 * g + n) else insertAt t.slots (1024 * g + n) x }

/-- A slot as a row (R234). -/
def Slot.row (x : Slot) : Row :=
  { data := x.data, md := { tag := x.tag, poison := x.poison, zs := x.zs, anchor := x.anchor, scales := x.scales } }

/-- A slot after a timed write of its whole contents: seq is kept (R228). -/
def Slot.put (x : Slot) (data : RowData) (scales : BitVec 256) (tag : BitVec 5) (anchor : BitVec 16) : Slot :=
  { x with data := data, scales := scales, tag := tag, anchor := anchor, fresh := false, poison := false, zs := false,
           bad := false }

/-- The bytes of scratchpad of group `g` (R224, R225). -/
def State.spBytes (s : State) (g : Nat) : Nat :=
  match s.core with
  | .tile b x _ => 65536 * spUnits ((s.bay b).cluster (x / 16)).carve g
  | .steward _ => 0

/-- The effective address of a bank operand (R232). -/
def State.bankEa (s : State) (o : Ops) : Word := s.strm.readA (aReg o.a) + s.intVal o.b o.c

/-- The address checks of an access of `n` bytes at `ea` aligned to `al` (R232). -/
def State.bankHazards (s : State) (g : Nat) (ea : Nat) (n al : Nat) : List Hazard :=
  when (s.spBytes g < ea + n) 0x081 (BitVec.ofNat 64 ea) ++ when (ea % al != 0) 0x082 (BitVec.ofNat 64 ea)

/-- A reading of a slot of the issuing tile under R229; an uncorrectable soft error is cause 0x141 (R250). -/
def State.slotRaw (s : State) (g ea : Nat) : Except Cause Raw :=
  let x := s.curTile.slot g (ea / 512)
  if x.bad then .error 0x141 else poisonCheck x.row

/-- The cause of a reading of a bank address, with that address. -/
def causeAt {α : Type} (x : Except Cause α) (ea : Nat) : List Hazard :=
  match x with
  | .ok _ => []
  | .error c => [(c, if c = 0x080 then BitVec.ofNat 64 ea else 0)]

/-- The causes of an access of `n` bytes at `ea` aligned to `al` that reads `slot`: no slot is read, or checked, at an address
the checks of R232 refuse (R234). -/
def State.slotHazards (s : State) (g ea n al : Nat) (slot : List Hazard) : List Hazard :=
  let bad := s.bankHazards g ea n al
  if bad.isEmpty then slot else bad

/-- Cause 0x04D when a timed port is used twice in a tc (R230). -/
def State.portHazards (s : State) (us : List PortUse) : List Hazard :=
  when (us.any (fun u => s.curTile.ports.contains u)) 0x04D

/-- The state with timed ports reserved. -/
def State.usePorts (s : State) (us : List PortUse) : State :=
  let t := s.curTile
  s.setCurTile { t with ports := t.ports ++ us }

/-- A use of group `g`'s read port now. -/
def State.readPort (s : State) (g : Nat) : PortUse := { tc := s.tc, g := g, write := false }

/-- A use of group `g`'s write port `n` tc from now. -/
def State.writePort (s : State) (g n : Nat) : PortUse := { tc := s.tc + n, g := g, write := true }

/-! ## LDL, STL and BRDS (R232, R233) -/

/-- The bytes of an access of width code `w`. -/
def widthBytes (w : BitVec 2) : Nat := 2 ^ w.toNat

/-- `n` bytes of a slot's data at byte `ea`, as a number. -/
def slotBytesAt (r : Row) (ea n : Nat) : Nat := r.data.toNat / 2 ^ (8 * (ea % 512)) % 2 ^ (8 * n)

/-- A value of `n` bytes extended to 64 bits. -/
def extendTo64 (sx : Bool) (n v : Nat) : Word :=
  if sx then BitVec.ofInt 64 (sintOf (8 * n) v) else BitVec.ofNat 64 v

/-- A scalar read of a bank. -/
def bankLoad (ks : List Nat) (i : Instr) (h : Head) (o : Ops) (g : BitVec 3) (w : BitVec 2) (sx : Bool) (lat : Nat)
    (s : State) : Host.Outcome State Fault Refusal :=
  let n := widthBytes w
  scalarWord ks false i h s
    (fun s =>
      let ea := (s.bankEa o).toNat
      s.slotHazards g.toNat ea n n (causeAt (s.slotRaw g.toNat ea) ea) ++ s.portHazards [s.readPort g.toNat])
    (fun s =>
      let ea := (s.bankEa o).toNat
      match s.slotRaw g.toNat ea with
      | .ok (r, ev) =>
        (s.usePorts [s.readPort g.toNat]).post lat (s.landA (aReg o.d) (extendTo64 sx n (slotBytesAt r ea n))) (tally ev)
      | .error _ => s)

/-- LDL on a steward core (05_control_registers R162): local RAM lands at issue + 4, any other address before the next
word issues. -/
def stewardLdl (k : Nat) (h : Head) (o : Ops) (g : BitVec 3) (w : BitVec 2) (sx : Bool) (s : State) :
    Host.Outcome State Fault Refusal :=
  let n := widthBytes w
  scalarWord [] true (.ldl h o g w sx) h s
    (fun s =>
      let ea := (s.bankEa o).toNat
      when (g != 0#3) 0x004 ++ when (ea % n != 0) 0x082 ++ causeIn (s.stewardLoad k ea n))
    (fun s =>
      let ea := (s.bankEa o).toNat
      match s.stewardLoad k ea n with
      | .ok v => s.writeA (if ea < 0x80000 then 4 else 1) (aReg o.d) (extendTo64 sx n v)
      | .error _ => s)

/-- The low `n` bytes of a register, which STL stores (R233). -/
def storeValue (v : Word) (n : Nat) : Nat := v.toNat % 2 ^ (8 * n)

/-- STL on a steward core: performed at once, before the next LDL or STL. -/
def stewardStl (k : Nat) (h : Head) (o : Ops) (g : BitVec 3) (w : BitVec 2) (s : State) :
    Host.Outcome State Fault Refusal :=
  let n := widthBytes w
  scalarWord [] true (.stl h o g w) h s
    (fun s =>
      let ea := (s.bankEa o).toNat
      when (g != 0#3) 0x004 ++ when (ea % n != 0) 0x082
        ++ causeIn (s.stewardStore k ea n (storeValue (s.strm.readA (aReg o.d)) n)))
    (fun s => match s.stewardStore k (s.bankEa o).toNat n (storeValue (s.strm.readA (aReg o.d)) n) with
      | .ok t => t
      | .error _ => s)

/-- LDL (R233; R162). -/
def execLdl (h : Head) (o : Ops) (g : BitVec 3) (w : BitVec 2) (sx : Bool) (s : State) :=
  match s.core with
  | .tile _ _ _ => bankLoad [0] (.ldl h o g w sx) h o g w sx 4 s
  | .steward k => stewardLdl k h o g w sx s

/-- STL (R233; R162). The read that a partial write of a poisoned slot makes is made when the write lands (log entry
16). -/
def execStl (h : Head) (o : Ops) (g : BitVec 3) (w : BitVec 2) (s : State) :=
  match s.core with
  | .steward k => stewardStl k h o g w s
  | .tile _ _ _ =>
    let n := widthBytes w
    scalarWord [0] false (.stl h o g w) h s
      (fun s => s.bankHazards g.toNat (s.bankEa o).toNat n n ++ s.portHazards [s.writePort g.toNat 1])
      (fun s => (s.usePorts [s.writePort g.toNat 1]).post 1
        [.slotBytes g.toNat (s.bankEa o).toNat n (s.strm.readA (aReg o.d))])

/-- BRDS (R233). -/
def execBrds (h : Head) (o : Ops) (g : BitVec 3) (w : BitVec 2) (sx : Bool) (s : State) :=
  bankLoad [1] (.brds h o g w sx) h o g w sx 2 s

/-! ## The slot instructions -/

/-- check(x, sq) (R235). -/
def checkHazards (x : Slot) (sq : Word) : List Hazard :=
  when (!x.fresh || x.seq != sq.extractLsb' 0 16) 0x04E

/-- Where a row or lane result of a raw value goes, at group `g` (R165, R234). -/
def State.landRaw (s : State) (d : Sel) (g : Nat) (r : Row) : List Land :=
  match d with
  | .v n => [.rowRaw (s.strm.physV n) r]
  | .lane aw n => [.lane aw n (2 * g) r]
  | _ => []

/-- A slot's contents as the result of a read: scales only with a block-scaled tag (R165). -/
def resultRow (r : Row) : Row :=
  { data := r.data
    md := { tag := r.md.tag, anchor := if r.md.tag = 23 then r.md.anchor else 0,
            scales := usedScales r.md.tag r.md.scales } }

/-- The causes of reading slot `ea` whole. -/
def State.slotReadHazards (s : State) (g ea : Nat) (chk : Bool) (sq : Word) : List Hazard :=
  s.portHazards [s.readPort g] ++ s.slotHazards g ea 512 512
    ((if chk then checkHazards (s.curTile.slot g (ea / 512)) sq else []) ++ causeAt (s.slotRaw g ea) ea)

/-- A read of slot `ea` onto a row or lane, with its check (R234, R235). -/
def State.slotRead (s : State) (d : Sel) (g ea : Nat) (chk : Bool) : State :=
  match s.slotRaw g ea with
  | .error _ => s
  | .ok (r, ev) =>
    let s := s.usePorts [s.readPort g]
    let s := if chk then s.post 1 [.unfresh g (ea / 512)] else s
    s.post 2 (s.landRaw d g (resultRow r)) (tally ev)

/-- BRD (R234). -/
def execBrd (h : Head) (o : Ops) (g : BitVec 3) (chk : Bool) (s : State) :=
  scalarWord [1] false (.brd h o g chk) h s
    (fun s => s.slotReadHazards g.toNat (s.bankEa o).toNat chk (s.intVal (cSel o.c) o.c))
    (fun s => s.slotRead o.d g.toNat (s.bankEa o).toNat chk)

/-- BWR (R236). -/
def execBwr (h : Head) (o : Ops) (g : BitVec 3) (s : State) :=
  scalarWord [1] false (.bwr h o g) h s
    (fun s => s.bankHazards g.toNat (s.bankEa o).toNat 512 512 ++ s.portHazards [s.writePort g.toNat 1]
      ++ causeIn (s.rawAt o.d (2 * g.toNat) s.tc))
    (fun s => match s.rawAt o.d (2 * g.toNat) s.tc with
      | .error _ => s
      | .ok (r, ev) =>
        let r := resultRow r
        (s.usePorts [s.writePort g.toNat 1]).post 1
          [.slot g.toNat ((s.bankEa o).toNat / 512) false r.data r.md.scales r.md.tag r.md.anchor] (tally ev))

/-! ## Pops of the offset queue (10_queues R276, R277, R280, R281) -/

/-- The causes of popping `n` entries now. -/
def Tile.popHazards (t : Tile) (n : Nat) : List Hazard :=
  when (t.oq.entries.length < n) 0x052 ++ when ((t.oq.entries.take n).any (fun e => e.getLsbD 32)) 0x080

/-- Cause 0x046 of a pop that found the queue in elastic mode at its sample: a write to one of `ts`, or an XOFF, landed in
tc t − 6 to t (05_control_registers R144). `sup` is the word its guard suppresses, which pops nothing: an XOFF alone does
not concern it. -/
def State.popHorizon (s : State) (ts : List Target) (sup : Bool := false) : List Hazard :=
  let found := match s.core with
    | .tile b x _ => (((s.bay b).viewAt s.tc).tile x).oq
    | .steward _ => s.curTile.oq
  when (!found.strict && ((s.horizonHit [.xoff] && !sup) || s.horizonHit ts)) 0x046

/-- The offsets of the oldest `n` entries. -/
def Tile.popped (t : Tile) (n : Nat) : List Nat := (t.oq.entries.take n).map (fun e => (e.extractLsb' 0 32).toNat)

/-- The tile after a pop of `n` entries. -/
def Tile.pop (t : Tile) (n : Nat) : Tile :=
  let q := t.oq
  { t with oq := { q with entries := q.entries.drop n, pops := q.pops + BitVec.ofNat 32 n, taken := q.taken + n } }

/-- The address BGTH reads: ea plus 512 times the entry it pops (R234). -/
def State.gatherEa (s : State) (o : Ops) : Nat := (s.bankEa o).toNat + 512 * (s.curTile.popped 1).headD 0

/-- BGTH (R234): without an entry to pop, or with one that carries the poison mark, it reads no slot. -/
def execBgth (h : Head) (o : Ops) (g : BitVec 3) (chk : Bool) (s : State) :=
  scalarWord [1] false (.bgth h o g chk) h s
    (fun s => s.curTile.popHazards 1 ++ s.popHorizon (guardTargets h s)
      ++ (if !(s.curTile.popHazards 1).isEmpty then []
          else s.slotReadHazards g.toNat (s.gatherEa o) chk (s.intVal (cSel o.c) o.c)))
    (fun s =>
      let ea := s.gatherEa o
      (s.setCurTile (s.curTile.pop 1)).slotRead o.d g.toNat ea chk)
    (fun s => s.lateGuard (fun s => s.popHorizon (guardTargets h s) true))

/-- BCHK: the check and the poison rule, nothing else (R235). -/
def execBchk (h : Head) (o : Ops) (g : BitVec 3) (s : State) :=
  scalarWord [1] false (.bchk h o g) h s
    (fun s => s.slotReadHazards g.toNat (s.bankEa o).toNat true (s.intVal o.d o.c))
    (fun s => match s.slotRaw g.toNat (s.bankEa o).toNat with
      | .error _ => s
      | .ok (_, ev) => (s.usePorts [s.readPort g.toNat]).post 1 [.unfresh g.toNat ((s.bankEa o).toNat / 512)] (tally ev))

/-- The data of elements of format `f`. -/
def packRow (f : BitVec 5) (el : List Nat) : RowData := BitVec.ofNat 4096 (packElems (elemWidth f) el)

/-- The slot, source and index operands of BSCT and BATM (R237, R239). -/
def State.slotAs (s : State) (g ea : Nat) (f : BitVec 5) : Except Cause Opnd :=
  match s.slotRaw g ea with
  | .error c => .error c
  | .ok r => readAs f s.strm.ftm r

/-- A row or lane operand of BK at group `g` read as `f`. -/
def State.bkOpnd (s : State) (x : Sel) (g : Nat) (f : BitVec 5) : Except Cause Opnd :=
  match s.rawAt x (2 * g) s.tc with
  | .error c => .error c
  | .ok r => readAs f s.strm.ftm r

/-- The scatter of R237: the higher source lane prevails. -/
def scatter (n : Nat) (old idx src : List Nat) : List Nat :=
  ((idx.zip src).take n).foldl (fun out p => if p.1 < n then out.set p.1 p.2 else out) old

/-- The ports of BSCT and BATM (Table 3). -/
def State.rmwPorts (s : State) (g : Nat) : List PortUse := [s.readPort g, s.writePort g 2]

/-- The causes of BSCT and BATM at slot `ea`: `slot` those of the slot's reading, `src` those of its source operands. -/
def State.rmwHazards (s : State) (g ea : Nat) (slot src : List Hazard) : List Hazard :=
  s.slotHazards g ea 512 512 slot ++ src ++ s.portHazards (s.rmwPorts g)

/-- What BSCT computes: the slot's new elements and the events. -/
def State.bsctOut (s : State) (o : Ops) (g : Nat) (f : BitVec 5) : Except Cause (List Nat × List Nat) :=
  match both (s.slotAs g (s.bankEa o).toNat f) (both (s.bkOpnd o.d g f) (s.bkOpnd (cSel o.c) g 6)) with
  | .error c => .error c
  | .ok (old, src, idx) =>
    .ok (scatter (lanes f) old.el idx.el src.el, old.allEvents ++ src.allEvents ++ idx.allEvents)

/-- BSCT (R237). -/
def execBsct (h : Head) (o : Ops) (g : BitVec 3) (ty : BitVec 5) (s : State) :=
  scalarWord [1] false (.bsct h o g ty) h s
    (fun s =>
      let ea := (s.bankEa o).toNat
      s.rmwHazards g.toNat ea (causeAt (s.slotAs g.toNat ea ty) ea)
        (causeIn (s.bkOpnd o.d g.toNat ty) ++ causeIn (s.bkOpnd (cSel o.c) g.toNat 6)))
    (fun s => match s.bsctOut o g.toNat ty with
      | .error _ => s
      | .ok (el, ev) => (s.usePorts (s.rmwPorts g.toNat)).post 2
          [.slot g.toNat ((s.bankEa o).toNat / 512) true (packRow ty el) 0 ty 0] (tally ev))

/-- How many slots BFILL writes. -/
def fillCount (o : Ops) : Nat := (immVal o.d).toNat

/-- The state after slots `j` to `j + n - 1` of BFILL are set in flight (R238). -/
def State.fillSlots (s : State) (g n0 : Nat) (data : RowData) (ty : BitVec 5) : Nat → Nat → State
  | 0, _ => s
  | n + 1, j => ((s.post (1 + j) [.slot g (n0 + j) false data 0 ty 0]).fillSlots g n0 data ty n (j + 1))

/-- BFILL (R238). -/
def execBfill (h : Head) (o : Ops) (g : BitVec 3) (ty : BitVec 5) (s : State) :=
  scalarWord [1] false (.bfill h o g ty) h s
    (fun s => s.bankHazards g.toNat (s.bankEa o).toNat (512 * fillCount o) 512
      ++ s.portHazards ((List.range (fillCount o)).map (fun j => s.writePort g.toNat (1 + j))))
    (fun s =>
      let v := (s.intVal (cSel o.c) o.c).toNat
      let data := packRow ty (List.replicate (lanes ty) v)
      (s.usePorts ((List.range (fillCount o)).map (fun j => s.writePort g.toNat (1 + j)))).fillSlots g.toNat
        ((s.bankEa o).toNat / 512) data ty (fillCount o) 0)

/-- One element of BATM (Table 6); the anchors are those of the slot and of the source. -/
def batmElem (op : Nat) (f : BitVec 5) (aOld aSrc : Int) (old x : Nat) : Nat × List Nat :=
  match op with
  | 0 =>
    if f = 23 then
      let v : Val := .fin (accInt x < 0) (accInt x).natAbs (aSrc - 64) false
      let (c, ev) := accAdd old v aOld
      (Nat.lor c (x / 2 ^ 104 % 16 * 2 ^ 104), ev)
    else if isInt f then fitInt f false (intElem f old + intElem f x)
    else finish f 0 false 0 (addV 0 (decodeElem f false 127 old) (decodeElem f false 127 x))
  | 1 => minMax f true false old x
  | 2 => minMax f false false old x
  | 3 => (keySelect true old x, [])
  | 4 => (keySelect false old x, [])
  | 5 => (Nat.land old x, [])
  | 6 => (Nat.lor old x, [])
  | _ => (Nat.xor old x, [])

/-- What BATM computes: the slot's new elements and anchor, and the events. -/
def State.batmOut (s : State) (o : Ops) (g : Nat) (f : BitVec 5) : Except Cause (List Nat × BitVec 16 × List Nat) :=
  let ea := (s.bankEa o).toNat
  match both (s.slotAs g ea f) (s.bkOpnd o.d g f) with
  | .error c => .error c
  | .ok (old, src) =>
    let slotTag : BitVec 5 := match s.slotRaw g ea with
      | .ok (r, _) => r.md.tag
      | .error _ => 0
    let anchor : BitVec 16 := if f = 23 then (if slotTag = 0 then src.anchor else old.anchor) else 0
    let rs := (old.el.zip src.el).map (fun (x, y) =>
      batmElem ((extra o.c).extractLsb' 0 4).toNat f anchor.toInt src.anchor.toInt x y)
    .ok (rs.map Prod.fst, anchor, old.allEvents ++ src.allEvents ++ rs.flatMap Prod.snd)

/-- BATM (R239). -/
def execBatm (h : Head) (o : Ops) (g : BitVec 3) (ty : BitVec 5) (s : State) :=
  scalarWord [1] false (.batm h o g ty) h s
    (fun s =>
      let ea := (s.bankEa o).toNat
      s.rmwHazards g.toNat ea (causeAt (s.slotAs g.toNat ea ty) ea) (causeIn (s.bkOpnd o.d g.toNat ty)))
    (fun s => match s.batmOut o g.toNat ty with
      | .error _ => s
      | .ok (el, anchor, ev) => (s.usePorts (s.rmwPorts g.toNat)).post 2
          [.slot g.toNat ((s.bankEa o).toNat / 512) true (packRow ty el) 0 ty anchor] (tally ev))

end Sys2Proof.Machine
end

