-- ==== Sys2Proof/Machine/Events.lean ====
section
/-! DEFINITION. The numeric-event counters of a tile: additions, saturation and threshold crossings (13_counters R350,
R351). -/

namespace Sys2Proof.Machine

/-- Whether class 4 counts (Table 6: evact.ien). -/
def Bay.countsInexact (y : Bay) : Bool := y.evact.getLsbD 32

/-- The action of class `k`: trap, interrupt (Table 6). -/
def Bay.evTrap (y : Bay) (k : Nat) : Bool := y.evact.getLsbD (2 * k)
def Bay.evIrq (y : Bay) (k : Nat) : Bool := y.evact.getLsbD (2 * k + 1)

/-- One class of events added to a tile's counters: the tile, and whether its counter crossed its threshold (R351). -/
def Tile.addEvent (t : Tile) (k n : Nat) : Tile × Bool :=
  let old := (nth t.ev k 0).toNat
  let new := min (old + n) (2 ^ 32 - 1)
  let thr := (nth t.evthr k 0).toNat
  ({ t with ev := put t.ev k (BitVec.ofNat 32 new) }, thr != 0 && old ≤ thr && thr < new)

/-- Events (class, count) added to a tile: the tile and the classes that crossed; class 4 only while it is enabled. -/
def Tile.addEvents (t : Tile) (ien : Bool) : List (Nat × Nat) → Tile × List Nat
  | [] => (t, [])
  | (k, n) :: evs =>
    if k = 4 ∧ !ien then t.addEvents ien evs
    else
      let (t, hit) := t.addEvent k n
      let (t, ks) := t.addEvents ien evs
      (t, if hit then k :: ks else ks)

/-- Timed events added in bay `b`, tile `x`: the state, with the steward interrupts of crossings, and the causes of the
classes that trap (R351). -/
def State.timedEvents (s : State) (b x : Nat) (evs : List (Nat × Nat)) : State × List Cause :=
  let y := s.bay b
  let (t, ks) := (y.tile x).addEvents y.countsInexact evs
  let s := s.setTile b x t
  let s := if ks.any y.evIrq then s.notify b 0x145 else s
  (s, (ks.filter y.evTrap).map (fun k => BitVec.ofNat 9 (0x0C0 + k)))

/-- The effect of a word that writes nothing later: its events count at issue, and every crossing that traps is raised against
it and leaves it without effect (R350, R351). They are there from then on, so that of the words of one tc an SRD of evcnt sees them
where its stream comes later in stream order; R350 does not say (DESIGN CHOICE, log entry 90). -/
def State.atIssue (s : State) (evs : List Nat) (eff : State → State) : State :=
  match s.core with
  | .tile b x _ =>
    match s.timedEvents b x (tally evs) with
    | (s, []) => eff s
    | (s, cs) => cs.foldl (fun s c => s.raise c) s
  | .steward _ => s

end Sys2Proof.Machine
end

