-- ==== Sys2Proof/Machine/Gateway.lean ====
section
/-! DEFINITION. Gateway commands, MAJ 0x28 to 0x2B: their issue, and what they do when they run (08_memories R244 to R250,
R409; 11_tables R307 to R315; 12_endpoints R320 to R322). A command runs as a whole when it starts; its fills arrive one by
one and its contributions travel to the endpoint (GatewaySteps). -/

namespace Sys2Proof.Machine

/-! ## Records -/

/-- The destination field of a fault record (10_queues Table 7). -/
def rowDest (n : Nat) : Nat := 0x8000 + n
def slotDest (g n : Nat) : Nat := g * 1024 + n
def noDest : Nat := 0xFFFF

/-- Bytes a command writes within one line: the index of their image, line or point, their address, and the bytes. -/
structure Piece where
  index : Nat
  va : Nat
  bytes : List Byte

/-- A command at work on tile `x` of bay `b`, with the pieces it is to write, and the lines that have refused an atomic of it (R409). -/
structure Run where
  s : State
  b : Nat
  x : Nat
  c : Cmd
  out : List Piece := []
  lines : List Nat := []

/-- A fault record queued for a command, which marks its token (10_queues R284, R286), also when the queue is full and drops the
record: R284 does not say whether flt is set then. DESIGN CHOICE (log entry 81). -/
def Run.fault (r : Run) (cause : Cause) (zs : Bool) (va index dest : Nat) : Run :=
  let rank := (r.s.bay r.b).rankid
  { r with
    s := r.s.queueFault r.b (r.x / 16) (faultRecord r.c.addr va cause r.x r.c.k zs rank index dest r.c.tclk)
    c := { r.c with flt := true } }

/-- Events a command gathers until its token completes (13_counters R350). -/
def Run.event (r : Run) (evs : List Nat) : Run :=
  if evs.isEmpty then r else { r with c := { r.c with evs := r.c.evs ++ tally evs } }

/-! ## Images -/

/-- Bytes per image of format `f` (R246). -/
def imageSize (f : BitVec 5) : Nat := if blockScaled f then 544 else 512

/-- A row from the bytes of an image of format `f` (R107, R247). -/
def imageRow (f : BitVec 5) (bs : List Byte) : Row :=
  { data := BitVec.ofNat 4096 (leNat (bs.take 512))
    md := { tag := f, scales := usedScales f (BitVec.ofNat 256 (leNat (bs.drop 512))) } }

/-- What a destination takes of the bytes of an image (R247): a slot the whole scale record of a block-scaled format (R107), a row the
scales its format uses (04_numbers R100; log entry 76). -/
def Local.image (d : Local) (f : BitVec 5) (bs : List Byte) : Row :=
  match d with
  | .row _ _ => imageRow f bs
  | .slots _ _ =>
    { data := (imageRow f bs).data
      md := { tag := f, scales := if blockScaled f then BitVec.ofNat 256 (leNat (bs.drop 512)) else 0 } }

/-- The bytes of an image of format `f` (R247): data and scales as they stand. -/
def rowImage (f : BitVec 5) (r : Row) : List Byte :=
  leBytes 512 r.data.toNat ++ (if blockScaled f then leBytes 32 r.md.scales.toNat else [])

/-- A poisoned row or slot (R248). -/
def poisoned (zs : Bool) : Row := { md := { poison := true, zs := zs } }

/-! ## Fills (R231, R247, R248; 13_counters R348) -/

/-- Whether a write in flight is that of a BSCT or BATM to slot `n` of group `g`, or a fill that waits for one. -/
def Land.rmwOf (g n : Nat) : Land → Bool
  | .slot g' n' true _ _ _ _ => g' == g && n' == n
  | .slotFill g' n' _ _ => g' == g && n' == n
  | _ => false

/-- The barrier counters of the fills a landing stands for. -/
def Land.fillBcs : Land → List Nat
  | .slotFill _ _ _ bcs => bcs
  | _ => []

/-- Whether a fill of a slot waits for the write of a BSCT or BATM that has read it (R231). -/
def Tile.holdsFill (t : Tile) (g n : Nat) : Bool := t.pend.any (fun p => p.what.any (Land.rmwOf g n))

/-- A fill of a slot: applied at once, or, between the read and the write of a BSCT or BATM, in the tc of that write and in
its place, since it is applied after it (R231); it adds to barrier counter `i` then. -/
def Tile.fillSlot (t : Tile) (g n : Nat) (v : Slot) (i : Nat) : Tile :=
  if t.holdsFill g n then
    { t with pend := t.pend.map (fun p =>
        { p with what := p.what.map (fun l => if l.rmwOf g n then .slotFill g n v (l.fillBcs ++ [i]) else l) }) }
  else t.setSlot g n v

/-- The 512 bytes of a fill of tile `x` added to barrier counter `i` of its cluster (13_counters R348). -/
def Bay.countFill (y : Bay) (x i : Nat) : Bay :=
  let c := y.cluster (x / 16)
  y.setCluster (x / 16) { c with bc := put c.bc i (nth c.bc i 0 + 512) }

/-- Whether slot `n` of group `g` of tile `x` is in the scratchpad; a fill that finds its slot outside it, since the carve-out changed
while it was on its way, changes none (R226). -/
def Bay.hasSlot (y : Bay) (x g n : Nat) : Bool := n < 128 * spUnits (y.cluster (x / 16)).carve g

/-- A slot as a fill leaves it (R247). -/
def Row.filled (r : Row) (seq : BitVec 16) : Slot :=
  { data := r.data, scales := r.md.scales, seq := seq, fresh := true, poison := r.md.poison, zs := r.md.zs, tag := r.md.tag,
    anchor := r.md.anchor }

/-- The state after a fill of a row or slot of a tile, which counts 512 bytes into barrier counter seq[15:12] in the wc in which it
changes its destination (13_counters R348). -/
def State.fillDest (s : State) (b x : Nat) (dst : Local) (j : Nat) (r : Row) (seq : BitVec 16) : State :=
  let t := s.tile b x
  let i := (seq.extractLsb' 12 4).toNat
  let y := (s.bay b).count 35 512
  match dst with
  | .row n _ => s.setBay b ((y.setTile x { t with rows := put t.rows n r }).countFill x i)
  | .slots g n =>
    let k := n + j
    if t.holdsFill g k then s.setBay b (y.setTile x (t.fillSlot g k (r.filled seq) i))
    else s.setBay b ((if y.hasSlot x g k then y.setTile x (t.fillSlot g k (r.filled seq) i) else y).countFill x i)

/-- The destination field of destination `j`. -/
def Local.dest (d : Local) (j : Nat) : Nat :=
  match d with
  | .row n _ => rowDest n
  | .slots g n => slotDest g (n + j)

/-- The image `j` of a fill reaches its destination, or a poisoning write replaces it (R247, R248). -/
def Run.fillImage (r : Run) (dst : Local) (va : Nat) (j : Nat) (seq : BitVec 16) (f : BitVec 5) : Run :=
  let (bs, s, flt) := r.s.imageRead r.b r.x va (imageSize f)
  let r := { r with s := s }
  match flt with
  | none => { r with s := r.s.fillDest r.b r.x dst j (dst.image f bs) seq }
  | some ((c, zs), _) =>
    let r := r.fault c zs va j (dst.dest j)
    { r with s := r.s.fillDest r.b r.x dst j (poisoned zs) seq }

/-! ## Stores -/

/-- The bytes of image or line `j`, which begins at `image`, to be written to `va` (R241, R320): pieces on aperture pages
become contributions, `bad` marking bytes whose source could not be read; other pieces wait for `flush` unless `bad`. A page
that faults queues one record for the image, unless the image has one already (`told`; R248). -/
def Run.write (r : Run) (j image va : Nat) (bs : List Byte) (bad told : Bool) : Run :=
  let step (acc : Run × Option Cause) (p : Nat × List Byte) : Run × Option Cause :=
    let (r, f) := acc
    match r.s.walk r.b p.1 with
    | .error (c, _) => (r, f.orElse (fun _ => some c))
    | .ok pg =>
      if !pg.w then (r, f.orElse (fun _ => some 0x091))
      else if pg.c then
        ({ r with c := { r.c with contribs :=
            r.c.contribs ++ [{ index := j, image := image, va := p.1, bytes := p.2, bad := bad }] } }, f)
      else if bad then (r, f)
      else ({ r with out := r.out ++ [{ index := j, va := p.1, bytes := p.2 }] }, f)
  let (r, f) := (vaPieces va bs).foldl step (r, none)
  match f with
  | some c => if told then r else r.fault c false image j noDest
  | none => r

/-- The byte some pieces give address `a`, with its piece's index: the last prevails. -/
def pieceByte (ps : List Piece) (a : Nat) : Option (Byte × Nat) :=
  ps.foldl (fun m p => if p.va ≤ a ∧ a < p.va + p.bytes.length then some ((p.bytes[a - p.va]?).getD 0, p.index) else m) none

/-- The runs of bytes some pieces give the addresses `a`, `a + 1`, …, each as one piece. -/
def pieceRuns (ps : List Piece) : Nat → Nat → List Piece
  | 0, _ => []
  | n + 1, a =>
    match pieceByte ps a with
    | none => pieceRuns ps n (a + 1)
    | some (v, i) =>
      match pieceRuns ps n (a + 1) with
      | q :: more =>
        if q.va = a + 1 then { q with index := i, va := a, bytes := v :: q.bytes } :: more
        else { index := i, va := a, bytes := [v] } :: q :: more
      | [] => [{ index := i, va := a, bytes := [v] }]

/-- The runs of one line written: an uncorrectable line that refuses its write queues one record, and takes none of it
(R409). -/
def Run.writeRuns (r : Run) : List Piece → Run
  | [] => r
  | p :: rest =>
    match r.s.vaWritePiece r.b r.x p.va p.bytes with
    | (s, none) => ({ r with s := s } : Run).writeRuns rest
    | (s, some (c, zs)) =>
      let r := ({ r with s := s } : Run).fault c zs (p.va / 128 * 128) p.index noDest
      if zs then (r.event [12]).writeRuns rest else r

/-- Everything a command writes, line by line: what one command covers of a line counts as one write (R409). -/
def Run.flush (r : Run) : Run :=
  let ps := r.out
  let r := (ps.map (fun p => p.va / 128)).dedup.foldl (fun r no =>
    r.writeRuns (pieceRuns (ps.filter (fun p => p.va / 128 == no)) 128 (128 * no))) r
  { r with out := [] }

/-- A slot as a running command reads it through the fill port (R246): zs = 1 reads as zeros with event 12; an
uncorrectable soft error reads as poison with zs = 0 (R250). -/
def Run.slotSource (r : Run) (g n : Nat) : Row :=
  let x := (r.s.tile r.b r.x).slot g n
  if x.bad then poisoned false else x.row

/-- Image `j` of a store from row or slot contents `v` (R247, R248 Table 10). Of an image whose source and whose page fault the record is
that of its source, where R248 does not say which. DESIGN CHOICE (log entry 79). -/
def Run.storeImage (r : Run) (v : Row) (va j : Nat) (f : BitVec 5) : Run :=
  if v.md.poison then
    let r := r.fault 0x094 v.md.zs va j noDest
    let r := if v.md.zs then r.event [12] else r
    r.write j va va (rowImage f {}) (!v.md.zs) true
  else r.write j va va (rowImage f v) false false

/-- The images of a store from image `j` on. -/
def Run.storeImages (r : Run) (src : Local) (f : BitVec 5) : Nat → List Word → Run
  | _, [] => r
  | j, va :: vas =>
    let v := match src with
      | .row _ v => v
      | .slots g n => r.slotSource g (n + j)
    (r.storeImage v va.toNat j f).storeImages src f (j + 1) vas

/-- A store, the higher image prevailing (R247). -/
def Run.storeAll (r : Run) (src : Local) (f : BitVec 5) (ga : List Word) : Run := (r.storeImages src f 0 ga).flush

/-! ## GCPY, GPF, GINV and GWB (R247) -/

/-- `n` bytes from `va` on, as spans within 128-byte lines: (address, length). -/
def spans : Nat → Nat → Nat → List (Nat × Nat)
  | 0, _, _ => []
  | fuel + 1, va, n =>
    if n = 0 then []
    else
      let k := min n (128 - va % 128)
      (va, k) :: spans fuel (va + k) (n - k)

/-- All spans of a range. -/
def spansOf (va n : Nat) : List (Nat × Nat) := spans (n / 128 + 2) va n

/-- The bytes of a copy's source, each with whether it was read: unreadable bytes of a page with ZS = 1 are zeros. -/
def Run.copySource (r : Run) (j : Nat) : List (Nat × Nat) → Run × List (Byte × Bool)
  | [] => (r, [])
  | (a, k) :: rest =>
    let (bs, s, f) := r.s.imageRead r.b r.x a k
    let r := { r with s := s }
    let (r, got) := match f with
      | none => (r, bs.map (fun b => (b, true)))
      | some ((c, zs), _) => (r.fault c zs a j noDest, List.replicate k ((0 : Byte), zs))
    let (r, more) := r.copySource (j + 1) rest
    (r, got ++ more)

/-- Runs of bytes with the same mark. -/
def runsOf : List (Byte × Bool) → List (List Byte × Bool)
  | [] => []
  | (v, m) :: rest =>
    match runsOf rest with
    | (vs, m') :: more => if m' = m then (v :: vs, m) :: more else ([v], m) :: (vs, m') :: more
    | [] => [([v], m)]

/-- A line of the copy's destination: bytes not read are left unchanged, or contribute as poisoned. -/
def Run.copyLine (r : Run) (j image : Nat) : Nat → List (List Byte × Bool) → Run
  | _, [] => r
  | va, (vs, m) :: more => (r.write j image va vs (!m) (!m)).copyLine j image (va + vs.length) more

/-- The lines of the copy's destination. -/
def Run.copyLines (r : Run) (j : Nat) (bs : List (Byte × Bool)) : List (Nat × Nat) → Run
  | [] => r
  | (a, k) :: rest => (r.copyLine j a a (runsOf (bs.take k))).copyLines (j + 1) (bs.drop k) rest

/-- GCPY: every source byte as if read before any destination byte is written. -/
def Run.copyAll (r : Run) (gd gs nb : Nat) : Run :=
  let (r, bs) := r.copySource 0 (spansOf gs nb)
  (r.copyLines 0 bs (spansOf gd nb)).flush

/-- The lines a range touches, those that translate, as line numbers of physical memory, with their pages. -/
def State.rangeLines (s : State) (b va n : Nat) : List (Nat × Page) :=
  (spansOf (va / 128 * 128) (if n = 0 then 0 else va % 128 + n)).filterMap (fun (a, _) =>
    match s.walk b a with
    | .ok p => some (p.loc / 128, p)
    | .error _ => none)

/-- GPF: the range's lines staged into the die cache, with `lv` 2 into the line cache too, never beyond their pages' CL. -/
def State.prefetch (s : State) (b x va n lv : Nat) : State :=
  (s.rangeLines b va n).foldl (fun s l => (s.readLine b x { l.2 with cl := min l.2.cl lv }).2) s

/-- GINV: the range's lines of the tile's line cache written back, then dropped. -/
def State.invalidate (s : State) (b x va n : Nat) : State :=
  (s.rangeLines b va n).foldl (fun s l => s.dropTileLine b x l.1) s

/-- GWB: the range's dirty lines written back from the tile's line cache and kept. Of a die cache's dirty CXL lines, which Table 8 has
move outward "on GWB" too, R247 says nothing, and they stay. DESIGN CHOICE (log entry 100). -/
def State.writeBackRange (s : State) (b x va n : Nat) : State :=
  (s.rangeLines b va n).foldl (fun s l => s.writeBackTile b x l.1) s

/-! ## GATM (R249, Table 11) -/

/-- The tag and element size in bytes of a GATM format. -/
def atomFormat (fmt : Nat) : BitVec 5 × Nat :=
  match fmt with
  | 0 => (3, 4)
  | 1 => (4, 8)
  | 2 => (7, 4)
  | 3 => (12, 4)
  | 4 => (23, 16)
  | _ => (24, 8)

/-- m after the operation on memory element `m` with local element `x`; `y` is the second of a cas pair. -/
def atomOp (op w m x y : Nat) : Nat × List Nat :=
  match op with
  | 0 => ((m + x) % 2 ^ w, [])
  | 1 => finish 12 0 false 0 (addV 0 (decodeElem 12 false 127 m) (decodeElem 12 false 127 x))
  | 2 => (Nat.lor (m / 2 ^ 104 % 16) (x / 2 ^ 104 % 16) * 2 ^ 104 + (m + x) % 2 ^ 104, [])
  | 3 => (keySelect true m x, [])
  | 4 => (keySelect false m x, [])
  | 5 => (Nat.land m x, [])
  | 6 => (Nat.lor m x, [])
  | 7 => (Nat.xor m x, [])
  | 8 => (x, [])
  | _ => (if m = x then y else m, [])

/-- A dirty die-cache copy of a line whose home agent is not the die cache written back to memory (09_ordering R252). -/
def State.writeBackDie (s : State) (no : Nat) : State :=
  match s.dieLine no with
  | some l =>
    if l.dirty && !dieHomed (128 * no) then (s.lineToMem l).placeDie { l with mask := 0 } else s
  | none => s

/-- What must go before an access at home (R249): the tile's line-cache copy, and a CXL line's die-cache copy. -/
def State.clearCopies (s : State) (b x no : Nat) : State :=
  let s := s.dropTileLine b x no
  if tierOf (128 * no) = 2 then (s.writeBackDie no).dropDieLine no else s

/-- A fault record of an element, image or line, unless it has one already (R248). -/
def Run.faultOnce (r : Run) (told : Bool) (cause : Cause) (zs : Bool) (va index dest : Nat) : Run :=
  if told then r else r.fault cause zs va index dest

/-- An access of line `no` at its home counted when it misses the die cache that is its home (13_counters Table 7). -/
def State.countHome (s : State) (b no : Nat) : State :=
  if dieHomed (128 * no) && (s.dieLine no).isNone then s.countBay b 40 else s

/-- One element of an atomic at `va` (R249, R320, R409): the run and the old value it returns; `dest` is the destination field
of its record, which it has already when `told`. A line that refuses several elements has one record, of the first of them. -/
def Run.atomElem (r : Run) (told : Bool) (dest i va op size x y : Nat) : Run × Nat :=
  match r.s.walk r.b va with
  | .error (c, zs) => (r.faultOnce told c zs va i dest, 0)
  | .ok p =>
    if p.c then (r.faultOnce told 0x105 false va i dest, 0)
    else if !p.w then (r.faultOnce told 0x091 false va i dest, 0)
    else
      let no := p.loc / 128
      let s := (r.s.clearCopies r.b r.x no).countHome r.b no
      let bad := (s.homeLine no).bad
      let r := { r with s := s }
      if bad && !p.zs then
        ({ r.faultOnce (told || r.lines.contains no) 0x093 false va i dest with lines := no :: r.lines }, 0)
      else
        let old := if bad then 0 else (s.homeLe p.loc size).1
        let (new, ev) := atomOp op (8 * size) old x y
        let r := ({ r with s := s.homeWrite p.loc (leBytes size new) } : Run).event (ev ++ if bad then [12] else [])
        (if bad then r.faultOnce told 0x093 true va i dest else r, old)

/-- The elements of an atomic, in order (unordered among themselves, R249). -/
def Run.atomAll (r : Run) (dest ga op size : Nat) (zsSlot : Option Bool) : Nat → List (Nat × Nat) → Run × List Nat
  | _, [] => (r, [])
  | i, (x, y) :: rest =>
    let va := (ga + i * size) % 2 ^ 64
    let (r, old) := match zsSlot with
      | some false => (r.fault 0x094 false va i dest, 0)
      | some true => (r.fault 0x094 true va i dest).atomElem true dest i va op size x y
      | none => r.atomElem false dest i va op size x y
    let (r, olds) := r.atomAll dest ga op size zsSlot (i + 1) rest
    (r, old :: olds)

/-- A list taken in pairs. -/
def pairsOf : List Nat → List (Nat × Nat)
  | x :: y :: rest => (x, y) :: pairsOf rest
  | _ => []

/-- GATM: its elements, then its `.ret` fill, which carries seq 0 (R249; 13_counters R348). -/
def Run.atomRun (r : Run) (loc : Local) (ga : Word) (n : Nat) (op fmt : BitVec 4) (ret : Bool) : Run :=
  let (f, size) := atomFormat fmt.toNat
  let src := match loc with
    | .row _ v => v
    | .slots g k => r.slotSource g k
  let zsSlot : Option Bool := match loc with
    | .row _ _ => none
    | .slots _ _ => if src.md.poison then some src.md.zs else none
  let els := elems (8 * size) (lanes f) (if src.md.poison then 0 else src.data.toNat)
  let xs := (if op = 9 then pairsOf els else els.map (fun x => (x, 0))).take n
  let r := if zsSlot = some true then r.event [12] else r
  let (r, olds) := r.atomAll (if ret then loc.dest 0 else noDest) ga.toNat op.toNat size zsSlot 0 xs
  if ret then
    { r with s := r.s.fillDest r.b r.x loc 0 (mkRow f (olds ++ List.replicate (lanes f - olds.length) 0)) 0 }
  else r

/-! ## Issue (R244, R246) -/

/-- The word of a command: a busy token raises 0x04F; suppressed, the token completes empty at issue + 1 unless another
command holds it, at issue or by a word of the same tc; `late` are the causes that a suppressed word raises. -/
def cmdWord (ks : List Nat) (i : Instr) (h : Head) (kd : BitVec 6) (hz : State → List Hazard) (eff : State → State)
    (s : State) (late : State → List Hazard := noHazard) : Host.Outcome State Fault Refusal :=
  scalarWord ks false i h s (fun s => when (s.tokBusy kd.toNat) 0x04F ++ hz s) eff
    (fun s => if !(late s).isEmpty then s.lateGuard late else if s.tokBusy kd.toNat then s else s.post 1 [.tokEmpty kd.toNat])

/-- The state with a command outstanding: it waits for the consumed tokens that are outstanding now; kd becomes outstanding
at issue + 1. `evs`, the events of the operands read at issue, count when its token completes (13_counters R350). -/
def State.launchCmd (s : State) (kd : BitVec 6) (c : Third) (what : CmdKind) (evs : List Nat := []) : State :=
  let waits := (consumed c).filter (fun k => k != kd.toNat && s.tokBusy k)
  let cmd : Cmd := { k := kd.toNat, addr := s.addr, tclk := s.tc, waits := waits, what := what,
                     evs := tally evs }
  let t := s.curTile
  (s.setCurTile { t with cmds := t.cmds ++ [cmd] }).post 1 [.tokOut kd.toNat]

/-- The causes of a slot local of `n` slots at `gN[ax]` (R246). -/
def State.localHazards (s : State) (d : Sel) (g n : Nat) : List Hazard :=
  match d with
  | .a k => s.bankHazards g (s.strm.readA k).toNat (512 * n) 512
  | _ => []

/-- The local of a command: a row, with the contents `v` a reading command took, or slots. -/
def State.localOf (s : State) (d : Sel) (g : Nat) (v : Row := {}) : Local :=
  match d with
  | .v n => .row (s.strm.physV n) v
  | .a k => .slots g ((s.strm.readA k).toNat / 512)
  | _ => .slots g 0

/-- uint of a count operand. -/
def State.cntVal (s : State) (x : Sel) (c : Third) : Nat := (s.intVal x c).toNat

/-- Whether `n` is a count of the local: one row, or 0 to 64 slots (R246). -/
def badCount (d : Sel) (n : Nat) : Bool :=
  match d with
  | .v _ => n != 1
  | _ => 64 < n

/-- Cause 0x083 (R246). -/
def misaligned (a n : Nat) : List Hazard := when (a % n != 0) 0x083 (BitVec.ofNat 64 a)

/-- The addresses of `n` consecutive images. R247 gives ga + j·size without a modulus; a sum past 2^64 wraps, here, at strides and at
the elements of an atomic. DESIGN CHOICE (log entry 99). -/
def imageAddrs (ga : Word) (size n : Nat) : List Word := (List.range n).map (fun j => ga + BitVec.ofNat 64 (j * size))

/-- The a-register operands of a gateway word. -/
def State.regOf (s : State) (x : Sel) : Word := s.strm.readA (aReg x)

/-- GLD (R247). -/
def execGld (h : Head) (o : Ops) (kd : BitVec 6) (g : BitVec 3) (s : State) :=
  cmdWord [7] (.gld h o kd g) h kd
    (fun s =>
      let n := s.cntVal o.b o.c
      let f := (s.regOf (cSel o.c)).extractLsb' 16 5
      s.regCheck o.b (fun v => badCount o.d v.toNat) ++ when (!isTag f) 0x00B ++ s.localHazards o.d g.toNat n
        ++ misaligned (s.regOf o.a).toNat 32)
    (fun s =>
      let dsc := s.regOf (cSel o.c)
      let f := dsc.extractLsb' 16 5
      s.launchCmd kd o.c (.fill (s.localOf o.d g.toNat) (imageAddrs (s.regOf o.a) (imageSize f) (s.cntVal o.b o.c))
        (dsc.extractLsb' 0 16) f))
    s

/-- A row a command reads at issue: a poisoned row with ZS reads as zeros (R166, R246). -/
def State.rowSource (s : State) (x : Sel) : Except Cause Raw :=
  match x with
  | .v _ => s.raw x
  | _ => .ok ({}, [])

/-- The contents and events of a row source. -/
def rawOr (x : Except Cause Raw) : Raw :=
  match x with
  | .ok r => r
  | .error _ => ({}, [])

/-- GST (R247). -/
def execGst (h : Head) (o : Ops) (kd : BitVec 6) (g : BitVec 3) (s : State) :=
  cmdWord [7] (.gst h o kd g) h kd
    (fun s =>
      let n := s.cntVal o.b o.c
      s.regCheck o.b (fun v => badCount o.d v.toNat) ++ s.localHazards o.d g.toNat n ++ misaligned (s.regOf o.a).toNat 32
        ++ causeIn (s.rowSource o.d))
    (fun s =>
      let f := BitVec.ofInt 5 (immVal (cSel o.c))
      let v := rawOr (s.rowSource o.d)
      s.launchCmd kd o.c (.store (s.localOf o.d g.toNat v.1)
        (imageAddrs (s.regOf o.a) (imageSize f) (s.cntVal o.b o.c)) f) v.2)
    s

/-- A byte count above 2^32 − 1 (R246). -/
def State.badBytes (s : State) (x : Sel) : List Hazard := s.regCheck x (fun v => 2 ^ 32 ≤ v.toNat)

/-- GCPY (R247). -/
def execGcpy (h : Head) (o : Ops) (kd : BitVec 6) (s : State) :=
  cmdWord [7] (.gcpy h o kd) h kd (fun s => s.badBytes o.b)
    (fun s => s.launchCmd kd o.c (.copy (s.regOf o.d) (s.regOf o.a) (s.cntVal o.b o.c))) s

/-- GPF: it changes what the caches hold, and nothing else (R247). -/
def execGpf (h : Head) (o : Ops) (kd : BitVec 6) (s : State) :=
  cmdWord [7] (.gpf h o kd) h kd (fun s => s.badBytes o.a)
    (fun s => s.launchCmd kd o.c (.prefetch (s.regOf o.d) (s.cntVal o.a o.c) (immVal o.b).toNat)) s

/-- GINV (R247). -/
def execGinv (h : Head) (o : Ops) (kd : BitVec 6) (s : State) :=
  cmdWord [7] (.ginv h o kd) h kd (fun s => s.badBytes o.a)
    (fun s => s.launchCmd kd o.c (.invalidate (s.regOf o.d) (s.cntVal o.a o.c))) s

/-- GWB (R247). -/
def execGwb (h : Head) (o : Ops) (kd : BitVec 6) (s : State) :=
  cmdWord [7] (.gwb h o kd) h kd (fun s => s.badBytes o.a)
    (fun s => s.launchCmd kd o.c (.writeBack (s.regOf o.d) (s.cntVal o.a o.c))) s

/-- sz of GGTH and GSCT (R246): n, f, stride. -/
def szCount (sz : Word) : Nat := (sz.extractLsb' 0 7).toNat
def szFormat (sz : Word) : BitVec 5 := sz.extractLsb' 16 5
def szStride (sz : Word) : Word := (sz.extractLsb' 32 32).setWidth 64

/-- The causes GGTH and GSCT share. -/
def State.stridedHazards (s : State) (o : Ops) (g : Nat) : List Hazard :=
  let sz := s.regOf o.b
  s.regCheck o.b (fun v => badCount o.d (szCount v)) ++ when (!isTag (szFormat sz)) 0x00B ++ s.localHazards o.d g (szCount sz)
    ++ misaligned (s.regOf o.a).toNat 32 ++ when ((szStride sz).toNat % 32 != 0) 0x083 (s.regOf o.a)

/-- The addresses of images at offsets times a stride. -/
def stridedAddrs (ga stride : Word) (offs : List Nat) : List Word := offs.map (fun k => ga + BitVec.ofNat 64 k * stride)

/-- GGTH: its offsets are popped at issue (R247). -/
def execGgth (h : Head) (o : Ops) (kd : BitVec 6) (g : BitVec 3) (s : State) :=
  cmdWord [7] (.ggth h o kd g) h kd
    (fun s => s.stridedHazards o g.toNat ++ s.curTile.popHazards (szCount (s.regOf o.b))
      ++ s.popHorizon (guardTargets h s ++ selTargets o.b s))
    (fun s =>
      let sz := s.regOf o.b
      let n := szCount sz
      let offs := s.curTile.popped n
      (s.setCurTile (s.curTile.pop n)).launchCmd kd o.c (.fill (s.localOf o.d g.toNat)
        (stridedAddrs (s.regOf o.a) (szStride sz) offs) ((s.intVal (cSel o.c) o.c).extractLsb' 0 16) (szFormat sz)))
    s (fun s => s.popHorizon (guardTargets h s) true)

/-- The index row of GSCT, read as UINT32 at issue. -/
def State.gsctIndex (s : State) (o : Ops) : Except Cause Opnd := s.opnd (cSel o.c) o.c 7

/-- GSCT (R247). -/
def execGsct (h : Head) (o : Ops) (kd : BitVec 6) (g : BitVec 3) (s : State) :=
  cmdWord [7] (.gsct h o kd g) h kd
    (fun s => s.stridedHazards o g.toNat ++ causeIn (s.rowSource o.d) ++ causeIn (s.gsctIndex o))
    (fun s => match s.gsctIndex o with
      | .error _ => s
      | .ok ix =>
        let sz := s.regOf o.b
        let v := rawOr (s.rowSource o.d)
        s.launchCmd kd o.c (.store (s.localOf o.d g.toNat v.1)
          (stridedAddrs (s.regOf o.a) (szStride sz) (ix.el.take (szCount sz))) (szFormat sz)) (v.2 ++ ix.allEvents))
    s

/-- The op and format of GATM (R249). -/
def atomOpCode (o : Ops) : BitVec 4 := BitVec.ofInt 4 (immVal (cSel o.c))
def atomFmtCode (o : Ops) : BitVec 4 := BitVec.ofInt 4 (immVal (cSel o.c) / 16)

/-- The most elements of a GATM: 1 … lanes(f), within the 64 of R246; 32 pairs of cas. -/
def atomMax (o : Ops) : Nat := if atomOpCode o = 9 then 32 else min 64 (lanes (atomFormat (atomFmtCode o).toNat).1)

/-- GATM (R249). -/
def execGatm (h : Head) (o : Ops) (kd : BitVec 6) (g : BitVec 3) (ret : Bool) (s : State) :=
  cmdWord [7] (.gatm h o kd g ret) h kd
    (fun s =>
      plain (immIn o.b 1 (atomMax o : Nat)) ++ s.regCheck o.b (fun v => v == 0 || atomMax o < v.toNat) ++ s.localHazards o.d g.toNat 1
        ++ misaligned (s.regOf o.a).toNat (atomFormat (atomFmtCode o).toNat).2
        ++ when (atomOpCode o == 1 && s.curBay.detm) 0x084 (s.regOf o.a) ++ causeIn (s.rowSource o.d))
    (fun s =>
      let v := rawOr (s.rowSource o.d)
      s.launchCmd kd o.c (.atomic (s.localOf o.d g.toNat v.1) (s.regOf o.a) (s.cntVal o.b o.c)
        (atomOpCode o) (atomFmtCode o) ret) v.2)
    s

/-- GLEV: the draw counter advances at issue (11_tables R309, R313). -/
def execGlev (h : Head) (o : Ops) (kd : BitVec 6) (s : State) :=
  cmdWord [7] (.glev h o kd) h kd
    (fun s => misaligned (s.regOf o.d).toNat 32 ++ misaligned (s.regOf o.a).toNat 32)
    (fun s => (s.launchCmd kd o.c (.grid (s.regOf o.d) (s.regOf o.a) s.strm.draw)).advanceDraw true) s

end Sys2Proof.Machine
end

