-- ==== Sys2Proof/Machine/Glev.lean ====
section
/-! DEFINITION. What GLEV does when it runs: stencil-weight tables, descriptors, the sums of its points and its writes
(11_tables R307 to R315). -/

namespace Sys2Proof.Machine

/-- A grid level transfer as its descriptor and table give it (R307, R308). -/
structure Grid where
  src : Nat
  dst : Nat
  ext : Nat × Nat × Nat
  sf : BitVec 5
  df : BitVec 5
  d : Nat
  cell : Bool
  bnd : Nat
  rm : Nat
  acc : Bool
  ss : Nat × Nat
  ds : Nat × Nat
  rho : Nat
  prolong : Bool
  weights : List Nat
  deriving DecidableEq, Repr

/-- The formats of a grid (R308). -/
def gridFormat (n : Nat) : Bool := (10 ≤ n && n ≤ 12) || (16 ≤ n && n ≤ 22)

/-- Whether an extent fits dimension `k` of a transfer of `d` dimensions (R309). -/
def extentOk (cell : Bool) (d k n : Nat) : Bool :=
  1 ≤ n && n ≤ 2 ^ 20 && (if k < d then (if cell then n % 2 == 0 else n % 2 == 1) else n == 1)

/-- `n` bytes at `off` of a list of bytes, little-endian. -/
def fieldOf (bs : List Byte) (off n : Nat) : Nat := leNat ((bs.drop off).take n)

/-- The transfer of a descriptor and of the table's header and weights; `none` when R309 refuses them. -/
def gridOf (dsc head ws : List Byte) : Option Grid :=
  let mode := fieldOf dsc 0x1F 1
  let d := fieldOf dsc 0x1E 1
  let cell := mode % 2 == 1
  let nx := fieldOf dsc 0x10 4
  let ny := fieldOf dsc 0x14 4
  let nz := fieldOf dsc 0x18 4
  let sf := fieldOf dsc 0x1C 1
  let df := fieldOf dsc 0x1D 1
  let aligned := [0x00, 0x08, 0x20, 0x28, 0x30, 0x38].all (fun off => fieldOf dsc off 8 % 32 == 0)
  let ok := aligned && gridFormat sf && gridFormat df && 1 ≤ d && d ≤ 3 && mode / 8 % 8 ≤ 4 && mode < 128
    && fieldOf head 0 1 == d && fieldOf head 1 1 ≤ 2 && fieldOf head 2 1 ≤ 1 && fieldOf head 3 13 == 0
    && extentOk cell d 0 nx && extentOk cell d 1 ny && extentOk cell d 2 nz && nx * ny * nz ≤ 2 ^ 36
  if ok then
    some {
      src := fieldOf dsc 0 8
      dst := fieldOf dsc 8 8
      ext := (nx, ny, nz)
      sf := BitVec.ofNat 5 sf
      df := BitVec.ofNat 5 df
      d := d
      cell := cell
      bnd := mode / 2 % 4
      rm := mode / 8 % 8
      acc := mode / 64 % 2 == 1
      ss := (fieldOf dsc 0x20 8, fieldOf dsc 0x28 8)
      ds := (fieldOf dsc 0x30 8, fieldOf dsc 0x38 8)
      rho := fieldOf head 1 1
      prolong := fieldOf head 2 1 == 1
      weights := elems 32 (ws.length / 4) (leNat ws) }
  else none

/-- The bytes of weights after a table's header (R307). -/
def weightBytes (head : List Byte) : Nat :=
  let d := min 3 (fieldOf head 0 1)
  let s := 2 * min 2 (fieldOf head 1 1) + 1
  4 * s ^ d * (if fieldOf head 2 1 = 1 then 2 ^ d else 1)

/-- The descriptor and the table read once, when the command starts; `none` when they are refused or cannot be read: with
uncorrectable data also where the page has ZS = 1, since R309 makes no exception for it. DESIGN CHOICE (log entry 82). -/
def Run.readGrid (r : Run) (ad aw : Nat) : Run × Option Grid :=
  let (dsc, s, f1) := r.s.imageRead r.b r.x ad 64
  let (head, s, f2) := s.imageRead r.b r.x aw 16
  let (ws, s, f3) := s.imageRead r.b r.x (aw + 16) (weightBytes head)
  ({ r with s := s }, if f1.isSome || f2.isSome || f3.isSome then none else gridOf dsc head ws)

/-- The coarse extent of dimension `k` (R310). -/
def Grid.coarse (g : Grid) (k n : Nat) : Nat := if g.d ≤ k then 1 else if g.cell then n / 2 else (n + 1) / 2

/-- The coarse extents. -/
def Grid.coarseExt (g : Grid) : Nat × Nat × Nat :=
  (g.coarse 0 g.ext.1, g.coarse 1 g.ext.2.1, g.coarse 2 g.ext.2.2)

/-- The extents read and the extents written (R310). -/
def Grid.srcExt (g : Grid) : Nat × Nat × Nat := if g.prolong then g.coarseExt else g.ext
def Grid.dstExt (g : Grid) : Nat × Nat × Nat := if g.prolong then g.ext else g.coarseExt

/-- A point's linear number, and the point of a number (R310). -/
def pointNo (e p : Nat × Nat × Nat) : Nat := p.1 + e.1 * (p.2.1 + e.2.1 * p.2.2)
def pointAt (e : Nat × Nat × Nat) (n : Nat) : Nat × Nat × Nat := (n % e.1, n / e.1 % e.2.1, n / e.1 / e.2.1)

/-- Where an element lies (R310): the byte that holds it, its first bit there, and its scale byte. -/
def elemAt (f : BitVec 5) (base : Nat) (st : Nat × Nat) (p : Nat × Nat × Nat) : Nat × Nat × Nat :=
  let row := p.2.1 * st.1 + p.2.2 * st.2
  let w := elemWidth f
  if blockScaled f then
    let img := base + p.1 / lanes f * 544 + row
    let i := p.1 % lanes f
    ((img + i * w / 8) % 2 ^ 64, i * w % 8, (img + 512 + i / 32) % 2 ^ 64)
  else ((base + p.1 * (w / 8) + row) % 2 ^ 64, 0, 0)

/-- What a reading of an element gives: its value, a zero in its place, or nothing (R314). -/
inductive GridRead where
  | value (x : Nat)
  | zero
  | lost
  deriving DecidableEq, Repr

/-- `n` bytes of an element read for point `nu` (R314). -/
def Run.gridBytes (r : Run) (a n nu : Nat) : Run × GridRead :=
  let (bs, s, f) := r.s.imageRead r.b r.x a n
  let r := { r with s := s }
  match f with
  | none => (r, .value (leNat bs))
  | some ((c, zs), _) =>
    (r.fault c zs a nu noDest, if zs then .zero else .lost)

/-- An element's value for point `nu`, if it can be read, and whether it is a zero in place of uncorrectable data (R310, R314). Where its scale byte alone faults, the record has the scale
byte's address (DESIGN CHOICE, log entry 5). -/
def Run.gridElem (r : Run) (f : BitVec 5) (base : Nat) (st : Nat × Nat) (p : Nat × Nat × Nat) (nu : Nat) :
    Run × Option (Val × Bool) :=
  let (a, bitOff, sa) := elemAt f base st p
  let w := elemWidth f
  match r.gridBytes a ((w + 7) / 8) nu with
  | (r, .lost) => (r, none)
  | (r, .zero) => (r, some (Val.zero, true))
  | (r, .value v) =>
    let x := v / 2 ^ bitOff % 2 ^ w
    if blockScaled f then
      match r.gridBytes sa 1 nu with
      | (r, .lost) => (r, none)
      | (r, .zero) => (r, some (Val.zero, true))
      | (r, .value sc) => (r, some (decodeElem f false sc x, false))
    else (r, some (decodeElem f false 127 x, false))

/-- A transfer at work, with the elements read so far (key 2 · number, plus 1 for old destination elements), and those of them that
the present point has counted event 12 for. -/
structure GridRun where
  r : Run
  memo : List (Nat × Option (Val × Bool)) := []
  zeroed : List Nat := []

/-- An element read for a point: from memory once (R314: one record for each faulting element). An element that reads as zero counts
event 12 for each point that uses it (R311, R314), once for one with several terms of it, and also for one left unwritten (DESIGN
CHOICE, log entry 101). -/
def GridRun.read (t : GridRun) (old : Bool) (f : BitVec 5) (base : Nat) (st : Nat × Nat) (e p : Nat × Nat × Nat)
    (nu : Nat) : GridRun × Option Val :=
  let key := 2 * pointNo e p + (if old then 1 else 0)
  let (t, v) : GridRun × Option (Val × Bool) := match find t.memo key with
    | some v => (t, v)
    | none => let (r, v) := t.r.gridElem f base st p nu; ({ t with r := r, memo := insertAt t.memo key v }, v)
  (if (v.map Prod.snd).getD false && !t.zeroed.contains key then { t with r := t.r.event [12], zeroed := key :: t.zeroed } else t,
   v.map Prod.fst)

/-- bound(i) in a dimension of extent `n` (R312). -/
def gridBound (bnd : Nat) (n : Nat) (i : Int) : Option Nat :=
  match bnd with
  | 0 => if 0 ≤ i ∧ i < n then some i.toNat else none
  | 1 => some (min (max i 0) (n - 1)).toNat
  | 2 => some (i % n).toNat
  | _ =>
    if n = 1 then some 0
    else
      let m : Int := 2 * n - 2
      let j := i % m
      some (if (n : Int) ≤ j then m - j else j).toNat

/-- The source point at `base + o`, when present (R312). -/
def Grid.sourcePoint (g : Grid) (base : Nat × Nat × Nat) (o : Int × Int × Int) : Option (Nat × Nat × Nat) := do
  let e := g.srcExt
  let x ← gridBound g.bnd e.1 (base.1 + o.1)
  let y ← gridBound g.bnd e.2.1 (base.2.1 + o.2.1)
  let z ← gridBound g.bnd e.2.2 (base.2.2 + o.2.2)
  pure (x, y, z)

/-- The offset with index `i` in a set (R307). -/
def Grid.offsetAt (g : Grid) (i : Nat) : Int × Int × Int :=
  let s := 2 * g.rho + 1
  ((i % s : Nat) - (g.rho : Int), if 2 ≤ g.d then (i / s % s : Nat) - (g.rho : Int) else 0,
   if 3 ≤ g.d then (i / (s * s) % s : Nat) - (g.rho : Int) else 0)

/-- The weights of destination point `u` with the source points they multiply (R311). -/
def Grid.stencil (g : Grid) (u : Nat × Nat × Nat) : List (Val × (Nat × Nat × Nat)) :=
  let n := (2 * g.rho + 1) ^ g.d
  let set := if g.prolong then u.1 % 2 + 2 * (u.2.1 % 2) + 4 * (u.2.2 % 2) else 0
  let base := if g.prolong then (u.1 / 2, u.2.1 / 2, u.2.2 / 2) else (2 * u.1, 2 * u.2.1, 2 * u.2.2)
  (List.range n).filterMap (fun i =>
    let w := decodeElem 12 false 127 ((g.weights[set * n + i]?).getD 0)
    if w.isZero then none else (g.sourcePoint base (g.offsetAt i)).map (fun p => (w, p)))

/-- The exact sum of products (R311): operands `vs`, in pairs. -/
def gridSum (rm : Nat) (ts : List (Val × Val)) : Exact :=
  let vs := ts.flatMap (fun t => [t.1, t.2])
  let ps := ts.map (fun t => (mulV t.1 t.2).1)
  let pos := ps.contains (.inf false)
  let neg := ps.contains (.inf true)
  if vs.any Val.isNan then nanResult false vs
  else if ps.any Val.isNan || (pos && neg) then nanResult true vs
  else if pos then (.inf false, [])
  else if neg then (.inf true, [])
  else match ps with
    | [] => (Val.zero, [])
    | p :: ps => (ps.foldl (fun a b => (addV rm a b).1) p, [])

/-- The source terms of a point: their values, or nothing when one cannot be read. Every element is read. -/
def GridRun.terms (t : GridRun) (g : Grid) (nu : Nat) : List (Val × (Nat × Nat × Nat)) →
    GridRun × Option (List (Val × Val))
  | [] => (t, some [])
  | (w, p) :: rest =>
    let (t, v) := t.read false g.sf g.src g.ss g.srcExt p nu
    let (t, more) := t.terms g nu rest
    (t, match v, more with
      | some v, some vs => some ((w, v) :: vs)
      | _, _ => none)

/-- The cause that keeps a write of `a` from being performed: its walk's, an aperture page, W = 0 (R314; 12_endpoints
R320). -/
def Run.destCause (r : Run) (a : Nat) : Option Cause :=
  match r.s.walk r.b a with
  | .error (c, _) => some c
  | .ok p => if p.c then some 0x105 else if !p.w then some 0x091 else none

/-- One destination point: its exact sum, or nothing when it is left unwritten (R314). An element whose own page keeps the
point from being written queues that one record, and its old value is not read. -/
def GridRun.point (t : GridRun) (g : Grid) (nu : Nat) : GridRun × Option Exact :=
  let u := pointAt g.dstExt nu
  let a := (elemAt g.df g.dst g.ds u).1
  let t := { t with zeroed := [] }
  let (t, old) := if g.acc && (t.r.destCause a).isNone then t.read true g.df g.dst g.ds g.dstExt u nu
    else (t, some Val.zero)
  let (t, ts) := t.terms g nu (g.stencil u)
  let sum : Option Exact := match old, ts with
    | some v, some ts => some (gridSum g.rm (if g.acc then (Val.ofInt 1, v) :: ts else ts))
    | _, _ => none
  match t.r.destCause a with
  | some c => ({ t with r := t.r.fault c false a nu noDest }, none)
  | none => (t, sum)

/-- The points `nu`, … in order. -/
def GridRun.points (t : GridRun) (g : Grid) : List Nat → GridRun × List (Option Exact)
  | [] => (t, [])
  | nu :: rest =>
    let (t, v) := t.point g nu
    let (t, vs) := t.points g rest
    (t, v :: vs)

/-- glev_word(nu) (R313), for rm = sr. -/
def Run.glevWord (r : Run) (draw : BitVec 56) (nu : Nat) : Nat :=
  let y := r.s.bay r.b
  philoxAt draw.toNat (y.lidxOf r.x) y.rankid.toNat (nu / 1024 % 2 ^ 28 * 16 + 7) y.seed.toNat (nu % 1024)

/-- Bytes of point `nu` to be written at `a`; addresses wrap at 2^64. -/
def Run.place (r : Run) (nu a : Nat) (bs : List Byte) : Run :=
  { r with out := r.out ++ (vaPieces a bs).map (fun p => { index := nu, va := p.1 % 2 ^ 64, bytes := p.2 }) }

/-- The points of a destination not block-scaled, rounded and placed. -/
def GridRun.plainPoints (t : GridRun) (g : Grid) (draw : BitVec 56) (vs : List (Option Exact)) : GridRun :=
  vs.zipIdx.foldl (fun t (v, nu) =>
    match v with
    | none => t
    | some x =>
      let (y, ev) := finish g.df g.rm false (t.r.glevWord draw nu) x
      let a := (elemAt g.df g.dst g.ds (pointAt g.dstExt nu)).1
      { t with r := (t.r.event ev).place nu a (leBytes (elemWidth g.df / 8) y) }) t

/-- One block of a block-scaled destination: the points `x0` to `x0 + 31` of row (y, z). Where its scale byte faults, one record has
that byte's address and the number of the block's first point (DESIGN CHOICE, log entry 5). -/
def GridRun.block (t : GridRun) (g : Grid) (draw : BitVec 56) (vs : List (Option Exact)) (x0 y z : Nat) : GridRun :=
  let e := g.dstExt
  let n := min 32 (e.1 - x0)
  let nu0 := pointNo e (x0, y, z)
  let mine := (vs.drop nu0).take n
  let (a, _, sa) := elemAt g.df g.dst g.ds (x0, y, z)
  if mine.any Option.isNone then t
  else match t.r.destCause sa with
    | some c => { t with r := t.r.fault c false sa nu0 noDest }
    | none =>
      let xs := mine.map (fun v => v.getD (Val.zero, []))
      let us := (List.range n).map (fun i => t.r.glevWord draw (nu0 + i))
      let ins := xs.zipWith (fun x u => (x.1, u)) us ++ List.replicate (32 - n) (Val.zero, 0)
      let (sc, el, ev) := blockScale g.df g.rm ins
      let w := elemWidth g.df
      let r := t.r.event (xs.flatMap Prod.snd ++ ev ++ el.flatMap Prod.snd)
      { t with r := (r.place nu0 a (leBytes (32 * w / 8) (packElems w (el.map Prod.fst)))).place nu0 sa [BitVec.ofNat 8 sc] }

/-- The blocks of a block-scaled destination. -/
def GridRun.blocks (t : GridRun) (g : Grid) (draw : BitVec 56) (vs : List (Option Exact)) : GridRun :=
  let e := g.dstExt
  let per := (e.1 + 31) / 32
  (List.range (per * e.2.1 * e.2.2)).foldl (fun t i =>
    t.block g draw vs (i % per * 32) (i / per % e.2.1) (i / per / e.2.1)) t

/-- GLEV (R309 to R315): sources and old values first, then the writes. -/
def Run.gridRun (r : Run) (ad aw : Word) (draw : BitVec 56) : Run :=
  match r.readGrid ad.toNat aw.toNat with
  | (r, none) => r.fault 0x095 false ad.toNat 0 noDest
  | (r, some g) =>
    let e := g.dstExt
    let t : GridRun := { r := r }
    let (t, vs) := t.points g (List.range (e.1 * e.2.1 * e.2.2))
    (if blockScaled g.df then t.blocks g draw vs else t.plainPoints g draw vs).r.flush

end Sys2Proof.Machine
end

