-- ==== Sys2Proof/Machine/Order.lean ====
section
/-! DEFINITION. ACQ, REL, FENCE and WAITA (09_ordering R261 to R271), BIND (11_tables R299 to R301) and ST64 (12_endpoints
R324, R325): their issue, and what the ordering commands do when they run. ST64 and BIND act when they land (Landing). -/

namespace Sys2Proof.Machine

/-! ## What the commands do -/

/-- The whole dirty-line FIFO of a tile drained, oldest first (R261). -/
def State.drainFifo (s : State) (b x : Nat) : State :=
  (s.tile b x).fifo.foldl (fun s no => s.writeBackTile b x no) s

/-- A line of a tile written back and dropped, for some lines. -/
def State.dropLines (s : State) (b x : Nat) (nos : List Nat) : State :=
  nos.foldl (fun s no => s.dropTileLine b x no) s

/-- A die-cache line written back to its home agent if dirty, then dropped. -/
def State.flushDie (s : State) (no : Nat) : State := (s.writeBackDie no).dropDieLine no

/-- The line numbers of the regions (base, size), those whose pages translate (R264). -/
def State.regionLines (s : State) (b : Nat) (regions : List (Word × Word)) : List Nat :=
  regions.flatMap (fun r => (s.rangeLines b r.1.toNat r.2.toNat).map Prod.fst)

/-- The lines all die caches hold. -/
def State.dieLines (s : State) : List Line := s.dies.toList.flatten

/-- REL's store of its sync word at home (R263, R409). On a page with C = 1, where 12_endpoints R320 gives REL neither an effect nor a
cause, it stores to the memory beneath (DESIGN CHOICE, log entry 95). -/
def Run.storeSync (r : Run) (sa val : Word) : Run :=
  match r.s.walk r.b sa.toNat with
  | .error (c, _) => r.fault c false sa.toNat 0 noDest
  | .ok p =>
    let no := p.loc / 128
    let s := if p.w then r.s.dropTileLine r.b r.x no else r.s
    let s := if tierOf p.loc = 2 then s.flushDie no else s
    if !p.w then ({ r with s := s } : Run).fault 0x091 false sa.toNat 0 noDest
    else
      let bad := (s.homeLine no).bad
      let r := { r with s := s }
      if bad && !p.zs then r.fault 0x093 false sa.toNat 0 noDest
      else
        let r := { r with s := (s.countHome r.b no).homeWrite p.loc (leBytes 8 val.toNat) }
        if bad then (r.fault 0x093 true sa.toNat 0 noDest).event [12] else r

/-- The lines of some regions handed on by a release or an acquire at cluster scope or wider: a later acquire drops the copies of them
(R259; log entry 68). -/
def State.publish (s : State) (nos : List Nat) : State :=
  { s with published := s.published ++ (nos.filter (fun no => !s.published.contains no)).dedup }

/-- REL (R263). -/
def Run.release (r : Run) (scope : Nat) (sa val : Word) (regions : List (Word × Word)) : Run :=
  let s := if 2 ≤ scope then r.s.drainFifo r.b r.x else r.s
  let s := if 2 ≤ scope then s.publish (s.regionLines r.b regions) else s
  let s := if 6 ≤ scope then (s.regionLines r.b regions).foldl State.writeBackDie s else s
  ({ r with s := s } : Run).storeSync sa val

/-- ACQ (R264): beside the lines of its regions it drops those that releases have handed on, and hands on its own, so that what
one tile's acquire has made visible is seen on (R259; log entry 68). -/
def Run.acquire (r : Run) (scope : Nat) (regions : List (Word × Word)) : Run :=
  let own := r.s.regionLines r.b regions
  let nos := own ++ r.s.published.filter (fun no => !own.contains no)
  let s := if 2 ≤ scope then (r.s.dropLines r.b r.x nos).publish own else r.s
  let s := if 6 ≤ scope then (nos.filter (fun no => tierOf (128 * no) == 2)).foldl State.flushDie s else s
  { r with s := s }

/-- FENCE (R265, Table 3). -/
def Run.fenceRun (r : Run) (scope : Nat) : Run :=
  let s := if 2 ≤ scope then r.s.drainFifo r.b r.x else r.s
  let s := if 6 ≤ scope then
      ((s.dieLines.filter (fun l => 2 ≤ tierOf (128 * l.no))).map (·.no)).foldl State.writeBackDie s
    else s
  let s := if 2 ≤ scope then s.dropLines r.b r.x ((s.tile r.b r.x).lines.map (·.no)) else s
  let s := if 6 ≤ scope then
      ((s.dieLines.filter (fun l => tierOf (128 * l.no) == 2)).map (·.no)).foldl State.flushDie s
    else s
  { r with s := s }

/-! ## Issue -/

/-- An ordering word of CT: on a tile a command, on a steward core `stew` and nothing else (05_control_registers R162). -/
def orderWord (i : Instr) (h : Head) (kd : BitVec 6) (hz stew : State → List Hazard) (eff : State → State)
    (s : State) : Host.Outcome State Fault Refusal :=
  match s.core with
  | .tile _ _ _ => cmdWord [0] i h kd hz eff s
  | .steward _ => scalarWord [0] true i h s stew id

/-- The regions bound to sync word `sa` (11_tables R299). -/
def Bay.regionsOf (y : Bay) (sa : Word) : List (Word × Word) :=
  (y.regions.toList.filter (fun e => e.size != 0 && e.sync == sa)).map (fun e => (e.base, e.size))

/-- Cause 0x085 (R262). -/
def syncHazards (sa : Word) (s : State) : List Hazard :=
  when (sa.toNat % 64 != 0 || (s.curBay.regionsOf sa).isEmpty) 0x085 sa

/-- ACQ: the regions are those of the table at issue (11_tables R301). -/
def execAcq (h : Head) (o : Ops) (kd : BitVec 6) (scope : BitVec 4) (s : State) :=
  orderWord (.acq h o kd scope) h kd (fun s => syncHazards (s.regOf o.d) s) (fun _ => [(0x00F, 0)])
    (fun s => s.launchCmd kd o.c (.acq scope (s.regOf o.d) (s.curBay.regionsOf (s.regOf o.d)))) s

/-- REL. -/
def execRel (h : Head) (o : Ops) (kd : BitVec 6) (scope : BitVec 4) (s : State) :=
  orderWord (.rel h o kd scope) h kd (fun s => syncHazards (s.regOf o.d) s) (fun _ => [(0x00F, 0)])
    (fun s => s.launchCmd kd o.c (.rel scope (s.regOf o.d) (s.intVal o.a o.c) (s.curBay.regionsOf (s.regOf o.d)))) s

/-- FENCE; on a steward core every earlier STL is already performed. -/
def execFence (h : Head) (o : Ops) (kd : BitVec 6) (scope : BitVec 4) (s : State) :=
  orderWord (.fence h o kd scope) h kd noHazard (fun _ => when (kd != 0#6 || extra o.c != 0#20) 0x004)
    (fun s => s.launchCmd kd o.c (.fence scope)) s

/-- The entry BIND names: uint of an a-register or immediate (11_tables Table 5). -/
def State.bindEntry (s : State) (o : Ops) : Nat := (s.intVal o.d o.c).toNat

/-- Whether BIND's operands are bad (11_tables R300). -/
def badBind (e : Nat) (sa ab sz : Word) : Bool :=
  63 < e || sa.toNat % 64 != 0 || ab.toNat % 128 != 0 || sz.toNat % 128 != 0
    || 2 ^ 52 ≤ sa.toNat || 2 ^ 52 ≤ ab.toNat || 2 ^ 52 < ab.toNat + sz.toNat

/-- BIND writes an entry at issue + 1 (11_tables R300). -/
def execBind (h : Head) (o : Ops) (s : State) :=
  scalarWord [0] true (.bind h o) h s
    (fun s =>
      let sa := s.regOf o.a
      notOnSteward s ++ when (badBind (s.bindEntry o) sa (s.regOf o.b) (s.regOf (cSel o.c))) 0x088 sa)
    (fun s => s.post 1 [.bind (s.bindEntry o) (s.regOf o.a) (s.regOf o.b) (s.regOf (cSel o.c))])

/-- The eight registers of an ST64's record, by logical name (12_endpoints R324). -/
def State.st64Record (s : State) (x : Sel) : List Word :=
  (List.range 8).map (fun i => s.strm.readA (aReg x + BitVec.ofNat 5 i))

/-- ST64: its effect takes place at issue + 6 (12_endpoints R325); a steward core receives code 3. -/
def execSt64 (h : Head) (o : Ops) (s : State) :=
  scalarWord [0] true (.st64 h o) h s noHazard
    (fun s =>
      if s.onSteward then s.writeA 6 (aReg o.d) 3
      else s.post 6 [.st64 (s.strm.physA (aReg o.d)) (s.st64Record o.a)])

/-- The compare of WAITA (R270, Table 4). -/
def watchHolds (cond : BitVec 3) (w val mask : Word) : Bool :=
  let x := w &&& mask
  match cond.toNat with
  | 0 => x == val
  | 1 => x != val
  | 2 => x.toNat < val.toNat
  | 3 => val.toNat ≤ x.toNat
  | 4 => x.toInt < val.toInt
  | 5 => val.toInt ≤ x.toInt
  | _ => ((x.extractLsb' 0 16) - (val.extractLsb' 0 16)).toNat < 2 ^ 15

/-- The word a WAITA reads at its home; `none` when it is misaligned, does not translate or faults (R271). -/
def State.watchWord (s : State) (b : Nat) (addr : Word) : Option Word :=
  if addr.toNat % 8 ≠ 0 then none
  else match s.walk b addr.toNat with
    | .error _ => none
    | .ok p =>
      let r := s.homeLe p.loc 8
      if r.2 then none else some (BitVec.ofNat 64 r.1)

/-- The state with that read counted when it misses the die cache that is its home (13_counters Table 7). -/
def State.countWatch (s : State) (b : Nat) (addr : Word) : State :=
  if addr.toNat % 8 ≠ 0 then s
  else match s.walk b addr.toNat with
    | .error _ => s
    | .ok p => s.countHome b (p.loc / 128)

/-- WAITA's mask: all ones for 0xF00 (R270). -/
def State.waitMask (s : State) (o : Ops) : Word :=
  match o.b with
  | .none => BitVec.allOnes 64
  | x => s.uintVal x o.c

/-- Whether the read that ended the wait of the WAITA of this tc faulted; without an observation, whether one would now. -/
def State.watchFaults (s : State) (b : Nat) (va : Word) : Bool :=
  match s.curTile.watch with
  | some (u, _, f) => if u = s.tc then f else (s.watchWord b va).isNone
  | none => (s.watchWord b va).isNone

/-- WAITA: nothing remains to do at issue once its condition has held; when the read that ended its wait faulted it raises 0x086
(R271). -/
def execWaita (h : Head) (o : Ops) (cond : BitVec 3) (s : State) :=
  scalarWord [0] true (.waita h o cond) h s
    (fun s => match s.core with
      | .steward _ => [(0x00F, 0)]
      | .tile b _ _ =>
        let va := s.regOf o.d
        when (s.horizonHit (guardTargets h s ++ selTargets o.d s ++ selTargets o.a s ++ selTargets o.b s)) 0x046
          ++ when (s.watchFaults b va) 0x086 va) id (fun s => s.lateGuard (guardLate h))

end Sys2Proof.Machine
end

