-- ==== Sys2Proof/Machine/Collective.lean ====
section
/-! DEFINITION. Collective descriptors, endpoints, ST64's effect, contributions, tree nodes and delivery (12_endpoints R317
to R340, R410). -/

namespace Sys2Proof.Machine

/-! ## Descriptors (R318, R319) -/

/-- A collective descriptor. -/
structure Descriptor where
  op : Nat
  dtype : BitVec 5
  placement : Nat
  anchor : Int
  vl : Nat
  base : Nat
  n : Nat
  stride : Nat
  root : Nat
  maxBytes : Nat
  zs : Bool
  bad : Bool
  deriving DecidableEq, Repr

/-- The slot of a job's table in the descriptor store (log entry 17); 8 for a job the device does not carry. -/
def State.jobSlot (s : State) (job : Word) : Nat := ((s.jobs.find? (fun j => j.id == job)).map Job.slot).getD 8

/-- The dtypes an op accepts (Table 6). -/
def opAccepts (op dtype : Nat) : Bool :=
  match op with
  | 0 => dtype == 11 || dtype == 12 || dtype == 23
  | 1 | 2 => dtype == 3 || dtype == 7 || dtype == 11 || dtype == 12
  | 3 | 4 => dtype == 24
  | 5 => dtype == 25
  | 6 | 7 | 8 => dtype == 7
  | 9 | 10 => dtype == 5
  | _ => false

/-- Descriptor `i` of the job of a bay, and whether it is bad for it (R319). -/
def State.descriptor (s : State) (y : Bay) (i : Nat) : Descriptor :=
  let at_ := s.jobSlot y.job * 0x40000 + 64 * i
  let f (off n : Nat) : Nat := readLe s.desc (at_ + off) n
  let dtype := f 1 1
  let n := f 0x0C 4
  let d := f 0x10 4
  let flags := f 0x20 1
  let ok := flags % 2 == 1 && flags < 4 && f 0x21 31 == 0 && opAccepts (f 0 1) dtype && f 2 1 ≤ 2 && f 3 1 == 0
    && (dtype == 23 || f 4 2 == 0) && (if dtype = 25 then 1 ≤ f 6 2 && f 6 2 ≤ 1024 else f 6 2 == 0)
    && 1 ≤ n && n ≤ 2 ^ 20 && 1 ≤ d && d ≤ 2 ^ 20 && f 0x14 4 < n && f 8 4 + d * (n - 1) < y.nrank.toNat
    && s.jobSlot y.job < 8
  { op := f 0 1, dtype := BitVec.ofNat 5 dtype, placement := f 2 1, anchor := sintOf 16 (f 4 2), vl := f 6 2, base := f 8 4,
    n := n, stride := d, root := f 0x14 4, maxBytes := f 0x18 8, zs := flags / 2 % 2 == 1, bad := !ok }

/-- Bytes of one element (Table 6). -/
def Descriptor.elemBytes (d : Descriptor) : Nat :=
  match d.op with
  | 5 => 8 + 4 * d.vl
  | 9 | 10 => 1
  | _ => elemWidth d.dtype / 8

/-- The position of a rank among the participants (R319). -/
def Descriptor.position (d : Descriptor) (rank : Nat) : Option Nat :=
  if d.base ≤ rank ∧ (rank - d.base) % d.stride = 0 ∧ (rank - d.base) / d.stride < d.n then
    some ((rank - d.base) / d.stride)
  else none

/-- The rank at a position. -/
def Descriptor.rankAt (d : Descriptor) (j : Nat) : Nat := d.base + d.stride * j

/-- The positions of the whole tree: the smallest power of two at or above n (04_numbers R122). -/
def Descriptor.span (d : Descriptor) : Nat := if d.n ≤ 1 then 1 else 2 ^ ((d.n - 1).log2 + 1)

/-! ## Submissions (R324, R325) -/

/-- The fields of a submission. -/
def Coll.desc (c : Coll) : Nat := ((c.record.headD 0).extractLsb' 0 12).toNat
def Coll.size (c : Coll) : Nat := ((c.record[2]?).getD 0).toNat
def Coll.cbase (c : Coll) : Nat := ((c.record[3]?).getD 0).toNat
def Coll.rbase (c : Coll) : Nat := ((c.record[4]?).getD 0).toNat

/-- The rank's current step: that of its launch record plus the barriers completed since the muster (11_tables R294). -/
def Bay.curStep (y : Bay) : Word := y.step + BitVec.ofNat 64 y.completed

/-- The return code of a submission (Table 5). -/
def State.st64Code (s : State) (y : Bay) (rec : List Word) : Nat :=
  let w (i : Nat) : Word := (rec[i]?).getD 0
  let d := s.descriptor y ((w 0).extractLsb' 0 12).toNat
  let b := (w 2).toNat
  let id := ((w 0).extractLsb' 16 16).toNat
  if w 1 ≠ y.curStep then 4
  else if d.bad || (w 0).extractLsb' 12 4 != 0#4 || (w 0).extractLsb' 32 32 != 0#32 || w 5 != 0 || w 6 != 0 || w 7 != 0 then 2
  else if (d.position y.rankid.toNat).isNone || id != y.ep.next || b == 0 || d.maxBytes < b || b % 32 != 0
      || b % d.elemBytes != 0 || (d.placement == 2 && b % (32 * d.n) != 0)
      || (w 3).toNat % 32 != 0 || (w 4).toNat % 32 != 0 then 3
  else if y.ep.opened = 64 then 1
  else 0

/-- Whether a participant contributes nothing: not the root of a broadcast (R323). -/
def Descriptor.silent (d : Descriptor) (pos : Nat) : Bool := d.op == 9 && pos != d.root

/-- Whether a participant's own contribution is complete (R323). -/
def Descriptor.complete (d : Descriptor) (pos : Nat) (c : Coll) : Bool := d.silent pos || c.present.length == c.size

/-- A participant's leaf, from its contribution (R331). -/
def Descriptor.leaf (d : Descriptor) (pos : Nat) (c : Coll) : ChildValue :=
  let bytes := if d.silent pos then [] else c.present.map (fun p => if p.2.2 then 0 else p.2.1)
  let bad := if d.silent pos then [] else c.present.map (fun p => p.2.2)
  { id := c.id, lo := pos, hi := pos + 1, desc := BitVec.ofNat 12 c.desc, bytes := bytes, bad := bad, evs := [] }

/-- Whether an endpoint holds a value for a node. -/
def Endpoint.value (e : Endpoint) (id : BitVec 10) (lo hi : Nat) : Option ChildValue :=
  e.values.find? (fun v => v.id == id && v.lo == lo && v.hi == hi)

/-- Whether an endpoint holds a child: its value, or the node it is an operand of (R334). -/
def Endpoint.holdsChild (e : Endpoint) (v : ChildValue) : Bool :=
  let w := v.hi - v.lo
  let lo := v.lo - v.lo % (2 * w)
  (e.value v.id v.lo v.hi).isSome || (e.value v.id lo (lo + 2 * w)).isSome

/-- The endpoint without its value for a node. -/
def Endpoint.drop (e : Endpoint) (id : BitVec 10) (lo hi : Nat) : Endpoint :=
  { e with values := e.values.filter (fun v => !(v.id == id && v.lo == lo && v.hi == hi)) }

/-- The endpoint with a value kept; one it already holds is discarded (R334). -/
def Endpoint.keep (e : Endpoint) (v : ChildValue) : Endpoint :=
  if (e.value v.id v.lo v.hi).isSome then e else { e with values := e.values ++ [v] }

/-- The endpoint with collective `c` in place of the one with its id, its leaf kept once its contribution is complete. -/
def Endpoint.putColl (e : Endpoint) (d : Descriptor) (pos : Nat) (c : Coll) : Endpoint :=
  let done := d.complete pos c
  let e := { e with colls := e.colls.map (fun (k : Coll) => if k.id = c.id then c else k) }
  if done then e.keep (d.leaf pos c) else e

/-- ST64's effect on the endpoint when its code is 0 (R325, R340). After id 1,023 `next` is 0: id + 1 does not fit its ten bits,
and R325 gives it no other value. DESIGN CHOICE (log entry 84). -/
def State.acceptColl (s : State) (y : Bay) (rec : List Word) (u : Nat) (addr : Word) (tile : Nat) : Bay :=
  let w0 := rec.headD 0
  let id := ((w0.extractLsb' 16 16).toNat) % 1024
  let d := s.descriptor y (w0.extractLsb' 0 12).toNat
  let c : Coll := { id := BitVec.ofNat 10 id, record := rec, landed := u, addr := addr, tile := tile, present := [],
                    opened := true, delivered := false }
  let e := { y.ep with
    opened := y.ep.opened + 1
    next := (id + 1) % 1024
    colls := y.ep.colls.filter (fun (k : Coll) => k.id != c.id) ++ [c] }
  { y with ep := e.putColl d ((d.position y.rankid.toNat).getD 0) c }

/-- ST64 of tile `x` landing in tc `u` (R325, R326): the bay and the return code. -/
def State.submit (s : State) (y : Bay) (rec : List Word) (u : Nat) (addr : Word) (tile : Nat) : Bay × Nat :=
  match s.st64Code y rec with
  | 0 => (s.acceptColl y rec u addr tile, 0)
  | c => (y, c)

/-! ## Contributions (R321 to R323) -/

/-- The open collective a contribution byte at `va` belongs to. -/
def Bay.collOf (y : Bay) (co va tclk : Nat) : Option Coll :=
  y.ep.colls.find? (fun c => c.opened && !c.delivered && c.desc == co && c.cbase ≤ va && va < c.cbase + c.size && c.landed ≤ tclk)

/-- A byte delivered to the endpoint of a bay: the bay, and the cause that discards it (R321). -/
def State.putByte (s : State) (y : Bay) (co va tclk : Nat) (v : Byte) (bad : Bool) : Bay × Option Cause :=
  match y.collOf co va tclk with
  | none => (y, some 0x101)
  | some c =>
    let off := va - c.cbase
    if (find c.present off).isSome then (y, some 0x102)
    else
      let d := s.descriptor y c.desc
      let c := { c with present := insertAt c.present off (v, bad) }
      ({ y with ep := y.ep.putColl d ((d.position y.rankid.toNat).getD 0) c }, none)

/-- The bytes of a contribution, from `va` up. -/
def State.putBytes (s : State) (co tclk : Nat) (bad : Bool) : Nat → List Byte → Bay → Bay × List Cause
  | _, [], y => (y, [])
  | va, v :: vs, y =>
    let (y, c) := s.putByte y co va tclk v bad
    let (y, cs) := s.putBytes co tclk bad (va + 1) vs y
    (y, c.toList ++ cs)

/-- The CO of the page a contribution lies on. -/
def State.coAt (s : State) (b va : Nat) : Nat :=
  match s.walk b va with
  | .ok p => p.co.toNat
  | .error _ => 0

/-- The contributions of image `j` of a command reach the endpoint, with a record for each cause that discarded a byte
(R321). -/
def Run.arrive (r : Run) (j : Nat) : Run :=
  let (mine, rest) := r.c.contribs.partition (fun k => k.index == j)
  let (y, cs) := mine.foldl (fun acc k =>
    let (y, cs) := r.s.putBytes (r.s.coAt r.b k.va) r.c.tclk k.bad k.va k.bytes acc.1
    (y, acc.2 ++ cs)) (r.s.bay r.b, ([] : List Cause))
  let va := (mine.head?.map (·.image)).getD 0
  let r := { r with s := r.s.setBay r.b y, c := { r.c with contribs := rest } }
  let r := if cs.contains 0x101 then r.fault 0x101 false va j noDest else r
  if cs.contains 0x102 then r.fault 0x102 false va j noDest else r

/-! ## Nodes (R329, R331) -/

/-- The elements of a value, and of its poison marks. -/
def chunk {α : Type} (n : Nat) (xs : List α) : List (List α) := groupsOf n (xs.length / max 1 n) xs

/-- An attention triple from its record, and back (04_numbers R109). -/
def tripleOf (bs : List Byte) : Triple :=
  { m := leNat (bs.take 4), s := leNat ((bs.drop 4).take 4), v := elems 32 ((bs.length - 8) / 4) (leNat (bs.drop 8)) }
def tripleBytes (t : Triple) : List Byte := leBytes 4 t.m ++ leBytes 4 t.s ++ t.v.flatMap (leBytes 4)

/-- The node function on one element (Table 6). -/
def nodeElem (d : Descriptor) (l r : List Byte) : List Byte × List Nat :=
  let w := elemWidth d.dtype
  let a := leNat l
  let b := leNat r
  let out (x : Nat) : List Byte := leBytes (w / 8) x
  match d.op with
  | 0 =>
    if d.dtype = 23 then
      (out (Nat.lor (a / 2 ^ 104 % 16) (b / 2 ^ 104 % 16) * 2 ^ 104 + (a + b) % 2 ^ 104), [])
    else
      let (x, ev) := finish d.dtype 0 false 0 (addV 0 (decodeElem d.dtype false 127 a) (decodeElem d.dtype false 127 b))
      (out x, ev)
  | 1 => let (x, ev) := minMax d.dtype true false a b; (out x, ev)
  | 2 => let (x, ev) := minMax d.dtype false false a b; (out x, ev)
  | 3 => (out (keySelect true a b), [])
  | 4 => (out (keySelect false a b), [])
  | 5 => let (t, ev) := combine (tripleOf l) (tripleOf r); (tripleBytes t, ev)
  | 6 => (out (Nat.land a b), [])
  | 7 => (out (Nat.lor a b), [])
  | _ => (out (Nat.xor a b), [])

/-- A node over two values (R331): broadcast and gather join them, any other op works element by element; an element
depends on a poisoned byte when either operand does. Participants that submit different byte counts meet no check in the spec: a
node has as many elements as its shorter operand. DESIGN CHOICE (log entry 85). -/
def nodeValue (d : Descriptor) (l r : ChildValue) : ChildValue :=
  if d.op = 9 ∨ d.op = 10 then
    { l with hi := r.hi, bytes := l.bytes ++ r.bytes, bad := l.bad ++ r.bad, evs := l.evs ++ r.evs }
  else
    let n := d.elemBytes
    let out := ((chunk n l.bytes).zip (chunk n r.bytes)).map (fun (a, b) => nodeElem d a b)
    let bad := ((chunk n l.bad).zip (chunk n r.bad)).flatMap (fun (a, b) =>
      List.replicate n (a.any id || b.any id))
    { l with
      hi := r.hi
      bytes := out.flatMap Prod.fst
      bad := bad
      evs := l.evs ++ r.evs ++ out.zipIdx.flatMap (fun (o, i) => o.2.map (fun k => (i, k))) }

/-! ## The endpoints of the device (R317, R333, R338) -/

/-- Whether a bay holds its rank's endpoint: from the acceptance of its launch record until the rank is switched out; an
ended rank, or one stopped by a trap, keeps its endpoint (R334, R340). -/
def Bay.seated (y : Bay) : Bool :=
  match y.phase with
  | .idle | .saved _ => false
  | _ => true

/-- Whether a bay is in a rank's service: from its muster until its end. -/
def Bay.occupied (y : Bay) : Bool :=
  match y.phase with
  | .running | .trapped | .taken _ => true
  | _ => false

/-- The bay that holds the endpoint of a rank. -/
def State.bayOf (s : State) (job : Word) (rank : BitVec 20) : Option Nat :=
  (List.range 8).find? (fun b => let y := s.bay b; y.seated && y.job == job && y.rankid == rank)

/-- Whether an entry of `State.parked` is of a rank. -/
def Parked.is (p : Parked) (job : Word) (rank : BitVec 20) : Bool := p.job == job && p.rank == rank

/-- A rank whose endpoint no bay holds. -/
def State.parkedOf (s : State) (job : Word) (rank : BitVec 20) : Option Parked := s.parked.find? (fun p => p.is job rank)

/-- What such a rank's bay would hold of it. -/
def Parked.asBay (p : Parked) : Bay :=
  { job := p.job, rankid := p.rank, nrank := p.nrank, ptbase := p.ptbase, ep := p.ep }

/-- Where the endpoint of a rank serves now: on a bay, or on none (R333: not while the rank is switched out). -/
structure Seat where
  bay : Option Nat
  y : Bay

/-- The seat of a rank. -/
def State.seat (s : State) (job : Word) (rank : BitVec 20) : Option Seat :=
  match s.bayOf job rank with
  | some b => some { bay := some b, y := s.bay b }
  | none => match s.parkedOf job rank with
    | some p => if p.live then some { bay := none, y := p.asBay } else none
    | none => none

/-- The state with another endpoint of a rank. -/
def State.setEp (s : State) (job : Word) (rank : BitVec 20) (e : Endpoint) : State :=
  match s.bayOf job rank with
  | some b => s.setBay b { s.bay b with ep := e }
  | none => { s with parked := s.parked.map (fun p => if p.is job rank then { p with ep := e } else p) }

/-- The endpoint of a rank of this device, wherever it is. -/
def State.endpointOf (s : State) (job : Word) (rank : BitVec 20) : Option Endpoint :=
  match s.bayOf job rank with
  | some b => some (s.bay b).ep
  | none => (s.parkedOf job rank).map Parked.ep

/-- The ranks of a job whose endpoints this device has. -/
def State.ranksHere (s : State) (job : Word) : List (BitVec 20) :=
  ((s.bays.toList.filter (fun y => y.seated && y.job == job)).map (fun (y : Bay) => y.rankid)
    ++ (s.parked.filter (fun p => p.job == job)).map Parked.rank).dedup

/-- The collective `id` of an endpoint, submitted in the present run of the step. -/
def Endpoint.coll (e : Endpoint) (id : BitVec 10) : Option Coll := e.colls.find? (fun c => c.id == id && c.opened)

/-- A node's value as a rank's endpoint `e` can reach it: its own, or, collapsed in staging, that of another endpoint of the
job on this device (R332). A rank that is switched out grants no permit, but what it holds for others it sends (R333, R338). -/
def State.reachValue (s : State) (e : Endpoint) (job : Word) (id : BitVec 10) (lo hi : Nat) : Option ChildValue :=
  (e :: (s.ranksHere job).filterMap (s.endpointOf job)).findSome? (fun e => e.value id lo hi)

/-- Whether a fabric port's link is up: traffic over a link that is down waits (14_contexts R371; 19_boundaries R395). -/
def State.linkUp (s : State) (port : BitVec 5) : Bool := port.toNat < 24 && !s.ports.getLsbD port.toNat

/-- Whether a value is the mark that stays of a child under another descriptor index, so that its node never forms (R410). -/
def isMark (v : ChildValue) : Bool := v.bytes.isEmpty && v.bad == [true]

/-- The endpoint with a child discarded, whose mark takes its place (R410). -/
def Endpoint.refuse (e : Endpoint) (v : ChildValue) : Endpoint :=
  let e := e.drop v.id v.lo v.hi
  { e with values := e.values ++ [{ v with bytes := [], bad := [true], evs := [] }] }

/-- A record of a delivery or of a node, in the fault queue of cluster 0 of the rank's bay (R335, R410); a rank that no bay
has, has no queue (log entry 75). -/
def State.collRecord (s : State) (t : Seat) (c : Coll) (cause : Cause) (zs : Bool) (va index : Nat) : State :=
  match t.bay with
  | some b => s.queueFault b 0 (faultRecord c.addr va cause (c.tile % 16) 0 zs t.y.rankid index noDest (c.landed - 6))
  | none => s

/-- A child under another descriptor index discarded, with one record 0x103 at its owner (R410). -/
def State.refuseChild (s : State) (t : Seat) (c : Coll) (v : ChildValue) : State :=
  (s.collRecord t c 0x103 false c.cbase 0).setEp t.y.job t.y.rankid (t.y.ep.refuse v)

/-- A child value received at an endpoint (R334, R410): one it already holds, itself or in a node formed, is discarded; before the owner has submitted the
collective itself the value is kept, and `execNodeCombine` compares the descriptor indices. -/
def State.receiveValue (s : State) (t : Seat) (v : ChildValue) : State :=
  if t.y.ep.holdsChild v then s
  else match t.y.ep.coll v.id with
    | some c => if v.desc.toNat ≠ c.desc then s.refuseChild t c v else s.setEp t.y.job t.y.rankid (t.y.ep.keep v)
    | none => s.setEp t.y.job t.y.rankid (t.y.ep.keep v)

/-- Whether a value is the result of its collective, for the switched-out rank `p` (R336). -/
def State.isResult (s : State) (p : Parked) (v : ChildValue) : Bool :=
  (p.ep.coll v.id).any (fun c => v.lo == 0 && v.hi == (s.descriptor p.asBay c.desc).span)

/-- The state in which the fillers that stand in for a rank no longer wait for collective `id`, whose result its root's owner has
offered (02_execution R57; 12_endpoints R336). -/
def State.offered (s : State) (job : Word) (rank : BitVec 20) (id : BitVec 10) : State :=
  { s with bays := s.bays.map (fun y => match y.displaced with
      | some (j, r, ids) => if j = job ∧ r = rank then { y with displaced := some (j, r, ids.filter (· != id.toNat)) } else y
      | none => y) }

/-- CHILD_VALUE_TRANSFER (R333, R334): a value moves over a fabric port to its parent's owner, which grants the permit
while its endpoint is in this hub; a value held at an endpoint of this device is that endpoint's own. Over a port that is
down it waits (14_contexts R371; 19_boundaries R395). A result for a rank that is switched out stays with its sender (R336),
but a filler in that rank's place then leaves (02_execution R57). -/
def execChildValueTransfer (way : ValueRoute) (v : ChildValue) (s : State) : Host.Outcome State Fault Refusal :=
  if !s.linkUp way.port then .refused (.notEnabled "CHILD_VALUE_TRANSFER")
  else match s.seat way.dst.job way.dst.rank, s.parkedOf way.dst.job way.dst.rank with
    | some t, _ => .next (s.receiveValue t v)
    | none, some p =>
      if s.isResult p v then .next (s.offered p.job p.rank v.id) else .refused (.notEnabled "CHILD_VALUE_TRANSFER")
    | none, none => .refused (.notEnabled "CHILD_VALUE_TRANSFER")

/-- Whether [lo, hi) is a node over two or more positions of a tree that spans `n`. -/
def isNode (n lo hi : Nat) : Bool :=
  let w := hi - lo
  lo + 2 ≤ hi && w == 2 ^ w.log2 && lo % w == 0 && hi ≤ n

/-- NODE_COMBINE (R331): the owner of [lo, hi) combines its children, of which its own it retains (R334), and the one it
received the node now holds; an absent one passes the other (04_numbers R122). A child
under another descriptor index is discarded with one record 0x103; its mark stays, and the node never forms (R410). -/
def execNodeCombine (r : RankName) (id : BitVec 10) (lo hi : Nat) (s : State) : Host.Outcome State Fault Refusal :=
  match s.seat r.job r.rank with
  | none => .refused (.notEnabled "NODE_COMBINE")
  | some t =>
    let e := t.y.ep
    match e.coll id with
    | none => .refused (.notEnabled "NODE_COMBINE")
    | some c =>
      let d := s.descriptor t.y c.desc
      let mid := (lo + hi) / 2
      if !isNode d.span lo hi || d.position r.rank.toNat != some lo || (e.value id lo hi).isSome then
        .refused (.notEnabled "NODE_COMBINE")
      else match e.value id lo mid, s.reachValue e r.job id mid hi with
        | some l, some u =>
          if isMark u then .refused (.notEnabled "NODE_COMBINE")
          else if u.desc.toNat ≠ c.desc then .next (s.refuseChild t c u)
          else .next (s.setEp r.job r.rank ((e.keep (nodeValue d l u)).drop id mid hi))
        | some l, none =>
          if d.n ≤ mid then .next (s.setEp r.job r.rank (e.keep { l with hi := hi }))
          else .refused (.notEnabled "NODE_COMBINE")
        | none, _ => .refused (.notEnabled "NODE_COMBINE")

/-! ## Delivery (R335, R322) -/

/-- The slice of the result that position `pos` receives: its first byte and length; none for one that receives nothing. -/
def Descriptor.received (d : Descriptor) (pos size : Nat) : Option (Nat × Nat) :=
  let l := if d.op = 10 then d.n * size else size
  match d.placement with
  | 0 => if d.op = 9 ∧ pos = d.root then none else some (0, l)
  | 1 => if d.op ≠ 9 ∧ pos = d.root then some (0, l) else none
  | _ => some (pos * l / d.n, (pos + 1) * l / d.n - pos * l / d.n)

/-- A received byte: its offset in the range, its value, and whether it is left by poison. -/
structure Received where
  off : Nat
  v : Byte
  left : Bool
  deriving DecidableEq, Repr

/-- The received bytes of a result: an element with a poisoned byte is left when zs = 0 (R322). -/
def receivedBytes (d : Descriptor) (root : ChildValue) (from_ len : Nat) : List Received :=
  let n := d.elemBytes
  let left := (chunk n root.bad).flatMap (fun e => List.replicate n (!d.zs && e.any id))
  (((root.bytes.zip left).drop from_).take len).zipIdx.map (fun ((v, l), i) => { off := i, v := v, left := l })

/-- The events a receiver counts (R330, R322): those of the elements of which it receives a byte, and event 12 once for each
such element computed with a poisoned byte read as zero (log entry 75). -/
def receivedEvents (d : Descriptor) (root : ChildValue) (from_ len : Nat) : List Nat :=
  let n := max 1 d.elemBytes
  let mine (i : Nat) : Bool := from_ < (i + 1) * n && i * n < from_ + len
  let poisoned := (chunk n root.bad).zipIdx.filter (fun (e, i) => mine i && e.any id)
  ((root.evs.filter (fun (i, _) => mine i && !(!d.zs && poisoned.any (fun p => p.2 == i)))).map Prod.snd)
    ++ (if d.zs then poisoned.map (fun _ => 12) else [])

/-- A cause that leaves a received byte unwritten, with the base of its unit: the address of the page skipped, or the number
of the sector left (R335). A page whose size no entry tells counts as one of 64 KiB (log entry 75). -/
abbrev Unwritten := Cause × Nat

/-- One received byte written at home, or the cause that skips its page (R335). A die-cache copy of a CXL line, which nothing
keeps coherent, goes to memory first and is dropped, so that what follows the delivery reads it (09_ordering R254, R268). -/
def State.deliverByte (s : State) (root : Word) (va : Nat) (v : Byte) : State × Option Unwritten :=
  match s.walkRoot root va with
  | .error (c, _) => (s, some (c, va - va % 65536))
  | .ok p =>
    if !p.w then (s, some (0x091, va - va % p.size))
    else
      let s := if tierOf p.loc = 2 then s.flushDie (p.loc / 128) else s
      (s.homeWrite p.loc [v], none)

/-- The received bytes written, in order: the state, and for each byte not written its offset and its causes. One left by poison is not
written, and its page counts as skipped all the same. -/
def State.deliverBytes (s : State) (root : Word) (rbase : Nat) : List Received → State × List (Nat × Unwritten)
  | [] => (s, [])
  | x :: xs =>
    let (u, c) := s.deliverByte root (rbase + x.off) x.v
    let (s, out) := (if x.left then s else u).deliverBytes root rbase xs
    (s, (c.toList ++ (if x.left then [(0x104, x.off / 32)] else [])).map (fun c => (x.off, c)) ++ out)

/-- The records of the bytes not written: one for each sector left by poison, one for each page skipped (R335). -/
def deliveryRecords (left : List (Nat × Unwritten)) : List (Nat × Unwritten) :=
  left.foldl (fun acc r => if acc.any (fun q => q.2 == r.2) then acc else acc ++ [r]) []

/-- Every tile of a bay drops its line-cache lines of a range (09_ordering R268). -/
def State.dropRange (s : State) (b va n : Nat) : State :=
  (List.range 128).foldl (fun s x => s.invalidate b x va n) s

/-- Events of gateway commands and deliveries added to a tile: a crossing that traps queues record 0x0D0 + k (13_counters
R351). -/
def State.asyncEvents (s : State) (b x : Nat) (evs : List (Nat × Nat)) (record : State → Cause → State) : State :=
  let y := s.bay b
  let (t, ks) := (y.tile x).addEvents y.countsInexact evs
  let s := s.setTile b x t
  let s := if ks.any y.evIrq then s.notify b 0x145 else s
  (ks.filter y.evTrap).foldl (fun s k => record s (BitVec.ofNat 9 (0x0D0 + k))) s

/-- An endpoint to which a collective has delivered (R335). -/
def Endpoint.close (e : Endpoint) (id : BitVec 10) : Endpoint :=
  { e with
    opened := e.opened - 1
    colls := e.colls.map (fun c => if c.id = id then { c with delivered := true } else c) }

/-- A collective marked delivered to a rank (R335). -/
def State.closeColl (s : State) (job : Word) (rank : BitVec 20) (id : BitVec 10) : State :=
  match s.endpointOf job rank with
  | some e => s.setEp job rank (e.close id)
  | none => s

/-- The result delivered to a rank (R335): its lines dropped, its bytes written, its records, its events, its end. -/
def State.deliver (s : State) (t : Seat) (c : Coll) (d : Descriptor) (root : ChildValue) (from_ len : Nat) : State :=
  let s := match t.bay with
    | some b => s.dropRange b c.rbase len
    | none => s
  let (s, left) := s.deliverBytes t.y.ptbase c.rbase (receivedBytes d root from_ len)
  let s := (deliveryRecords left).foldl (fun s (off, k, _) =>
    s.collRecord t c k false (c.rbase + off) (off / 32)) s
  let s := match t.bay with
    | some b => s.asyncEvents b 0 (tally (receivedEvents d root from_ len)) (fun s k => s.collRecord t c k false c.rbase 0)
    | none => s
  s.closeColl t.y.job t.y.rankid c.id

/-- How many participants a collective's result is delivered to (R335). -/
def Descriptor.receivers (d : Descriptor) : Nat :=
  match d.placement with
  | 0 => if d.op = 9 then d.n - 1 else d.n
  | 1 => if d.op = 9 then 0 else 1
  | _ => d.n

/-- Whether every node of a collective that a rank of this device owns, its leaf among them, has its value. The root's result
is a value of them all, so there is none before (R331); a node that met a refused child never has one (R410). -/
def State.nodesFormed (s : State) (job : Word) (d : Descriptor) (id : BitVec 10) : Bool :=
  (s.ranksHere job).all (fun r => match d.position r.toNat with
    | none => true
    | some pos => (List.range (d.span.log2 + 1)).all (fun k =>
        pos % 2 ^ k != 0 || (s.endpointOf job r).any (fun e => (e.value id pos (pos + 2 ^ k)).isSome)))

/-- The ranks of this device that receive a result of a collective of `size` bytes a participant. -/
def State.receiversHere (s : State) (job : Word) (d : Descriptor) (size : Nat) : List (BitVec 20) :=
  (s.ranksHere job).filter (fun r => (d.position r.toNat).any (fun pos => (d.received pos size).isSome))

/-- Whether a receiver of a collective is assigned to a bay of this device, which has not launched it yet: it has not received
(R335). -/
def State.receiverAwaited (s : State) (job : Word) (d : Descriptor) (size : Nat) : Bool :=
  s.bays.toList.any (fun y => y.assigned.any (fun a => a.job == job && !(s.ranksHere job).contains a.rank
    && (d.position a.rank.toNat).any (fun pos => (d.received pos size).isSome)))

/-- Whether delivery to every receiver has completed (R335): to those of this device, on a bay or switched out, and to those
elsewhere, as it is told over a fabric port, which must be up (14_contexts R371). A collective without a receiver waits for none.
What the port tells is the fabric's word for the ranks this device does not hold (log entry 75). -/
def State.allReceived (s : State) (job : Word) (d : Descriptor) (id : BitVec 10) (size : Nat) (via : Option (BitVec 5)) : Bool :=
  let here := s.receiversHere job d size
  d.receivers == 0 || (s.nodesFormed job d id && !s.receiverAwaited job d size && (here.length == d.receivers || via.any s.linkUp)
    && here.all (fun r => ((s.endpointOf job r).bind (fun e => e.coll id)).any Coll.delivered))

/-- Whether the collectives `ids` could all deliver to a switched-out rank, or have (02_execution R57; R336). -/
def State.resultReady (s : State) (job : Word) (rank : BitVec 20) (ids : List Nat) : Bool :=
  match s.parkedOf job rank with
  | none => false
  | some p => ids.all (fun id => (p.ep.coll (BitVec.ofNat 10 id)).all (fun c =>
      let d := s.descriptor p.asBay c.desc
      c.delivered || (match d.received ((d.position rank.toNat).getD 0) c.size with
        | some _ => (s.reachValue p.ep job c.id 0 d.span).isSome
        | none => s.allReceived job d c.id c.size none)))

/-- Whether every receiver of collective `id` has its result, for a switched-out rank that is none of them (R335). -/
def State.toldParked (s : State) (p : Parked) (id : BitVec 10) (via : Option (BitVec 5)) : Bool :=
  (p.ep.coll id).any (fun c =>
    let d := s.descriptor p.asBay c.desc
    (d.received ((d.position p.rank.toNat).getD 0) c.size).isNone && s.allReceived p.job d id c.size via)

/-- COLLECTIVE_DELIVERY (R335): a receiver's bytes, or, for a participant that receives nothing, the end of its wait once
every receiver has its result. It receives no element, and so counts none of the events of R330 (log entry 75). A replay is
delivered once its contribution is collected again (R340). To a switched-out rank it waits (R336), but a filler in that
rank's place then leaves (02_execution R57). -/
def execCollectiveDelivery (r : Notice) (id : BitVec 10) (s : State) : Host.Outcome State Fault Refusal :=
  match s.seat r.job r.rank with
  | none => match s.parkedOf r.job r.rank with
    | some p =>
      if s.toldParked p id r.via then .next (s.offered p.job p.rank id) else .refused (.notEnabled "COLLECTIVE_DELIVERY")
    | none => .refused (.notEnabled "COLLECTIVE_DELIVERY")
  | some t =>
    match t.y.ep.coll id with
    | none => .refused (.notEnabled "COLLECTIVE_DELIVERY")
    | some c =>
      let d := s.descriptor t.y c.desc
      let pos := (d.position r.rank.toNat).getD 0
      if c.delivered || !d.complete pos c then .refused (.notEnabled "COLLECTIVE_DELIVERY")
      else match d.received pos c.size, s.reachValue t.y.ep r.job id 0 d.span with
        | some (from_, len), some root => .next (s.deliver t c d root from_ len)
        | some _, none => .refused (.notEnabled "COLLECTIVE_DELIVERY")
        | none, _ =>
          if s.allReceived r.job d id c.size r.via then .next (s.closeColl r.job r.rank id)
          else .refused (.notEnabled "COLLECTIVE_DELIVERY")

end Sys2Proof.Machine
end

