-- ==== Sys2Proof/Machine/Hints.lean ====
section
/-! DEFINITION. PFI, hint words, reserved and illegal major opcodes and portable block headers (03_encoding R72 to R77;
10_queues R288). -/

namespace Sys2Proof.Machine

/-- A staging request appended to a cluster's prefetch queue: dropped when the function is resident or queued, or the
queue is full, which performance event 44 counts (10_queues R288). -/
def Bay.requestFn (y : Bay) (cl : Nat) (fn : BitVec 24) : Bay :=
  let c := y.cluster cl
  if y.hasFn cl fn || c.prefetch.contains fn || 16 ≤ c.prefetch.length then y.count 44
  else y.setCluster cl { c with prefetch := c.prefetch ++ [fn] }

/-- The function a PFI names: its literal, when it has one and it is a function of the code object. -/
def pfiFn (y : Bay) (rest : BitVec 80) : Option (BitVec 24) :=
  let w := (rest.extractLsb' 0 32).toNat
  if rest.getLsbD 32 && w < y.fnCount then some (BitVec.ofNat 24 w) else none

/-- PFI: active, its function joins the cluster's prefetch queue; nothing else changes, and it never faults (R76). -/
def execPfi (h : Head) (_min : BitVec 8) (rest : BitVec 80) (s : State) : Host.Outcome State Fault Refusal :=
  match s.core with
  | .steward _ => .next s
  | .tile _ x _ =>
    if guardP h s.strm then
      match pfiFn s.curBay rest with
      | some fn => .next (s.setCurBay (s.curBay.requestFn (x / 16) fn))
      | none => .next s
    else .next s

/-- HNT: no effect in any case (R76). -/
def execHnt (_h : Head) (_maj _min : BitVec 8) (_rest : BitVec 80) (s : State) : Host.Outcome State Fault Refusal :=
  .next s

/-- A word of MAJ 0x80 to 0xBF: a guarded trap (R73). R65 names no predicates for it; the model's guard is over the p registers
(DESIGN CHOICE, log entry 91). -/
def execReservedMajorOpcode (h : Head) (_maj _min : BitVec 8) (_rest : BitVec 80) (s : State) :
    Host.Outcome State Fault Refusal :=
  if guardP h s.strm then .next (s.raise 0x000) else .next s

/-- A permanently illegal major opcode: it traps whatever its guard field holds (R73). -/
def execIllegalMajorOpcode (_h : Head) (_maj _min : BitVec 8) (_rest : BitVec 80) (s : State) :
    Host.Outcome State Fault Refusal :=
  .next (s.raise 0x001)

/-- MAJ 0xFF: a portable block header in native code (R73). -/
def execPortableBlockHeader (_h : Head) (_min : BitVec 8) (_rest : BitVec 80) (s : State) :
    Host.Outcome State Fault Refusal :=
  .next (s.raise 0x007)

end Sys2Proof.Machine
end

