-- ==== Sys2Proof/Machine/Matrix.lean ====
section
/-! DEFINITION. The accumulator tiles and the matrix engine, MAJ 0x70 to 0x72 (07_accumulators R202 to R222). The A reads
after the issue tc, the destination reads and the tile results are driven by Timetable. -/

namespace Sys2Proof.Machine

/-! ## Tiles, planes, passes -/

/-- The physical row of row `m` of tile `c` (R202). -/
def tileRowNo (c m : Nat) : Nat := 32 * c + m

/-- The accumulator tile a selector names. -/
def accNo : Sel → Nat
  | .acc n => n.toNat
  | _ => 0

/-- Passes of a B operand of tag `f` (01_device R20; 2 for an empty plane, R205). -/
def passesOf (f : BitVec 5) : Nat :=
  match f.toNat with
  | 8 | 15 => 4
  | 9 => 3
  | 10 => 11
  | 11 => 8
  | 12 => 24
  | 0 | 14 => 2
  | n => n - 14

/-- The rows of a 32×32 A operand of format `f` (R214). -/
def aRowCount (f : BitVec 5) : Nat := 1024 / lanes f

/-- The B values of column `n`: elements 32n … 32n + 31, with their scale (R205); an empty plane reads +0. -/
def Plane.column (p : Plane) (ftz : Bool) (n : Nat) : List Val :=
  let w := elemWidth p.tag
  if p.tag = 0 then List.replicate 32 Val.zero
  else (elems w 32 (p.data.toNat / 2 ^ (32 * n * w))).map
    (decodeElem p.tag ftz (if blockScaled p.tag then scaleAt p.scales n else 127))

/-- Whether column `n` of a plane is a NaN block (R209). -/
def Plane.nanBlock (p : Plane) (n : Nat) : Bool := blockScaled p.tag && scaleAt p.scales n == 255

/-- A plane after part `q` of format `f` lands (R211). -/
def Plane.load (p : Plane) (q : Nat) (v : Row) : Plane :=
  let f := v.md.tag
  let p := if p.tag = f then p else { tag := f }
  let nb := lanes f / 32
  { p with
    data := BitVec.ofNat 32768 (p.data.toNat % 2 ^ (4096 * q) + v.data.toNat * 2 ^ (4096 * q)
      + p.data.toNat / 2 ^ (4096 * (q + 1)) * 2 ^ (4096 * (q + 1)))
    scales := if blockScaled f then BitVec.ofNat 256 (packElems 8 ((List.range 32).map (fun j =>
        if q * nb ≤ j ∧ j < (q + 1) * nb then scaleAt v.md.scales (j - q * nb) else scaleAt p.scales j)))
      else 0 }

/-! ## Rows as accumulators -/

/-- A destination row as an accumulating instruction reads it (R208): slots, anchor, events. -/
structure AccRow where
  el : List Nat
  anchor : BitVec 16
  evs : List Nat
  deriving DecidableEq, Repr

/-- R208, R166: NONE reads as zero slots at anchor 0; any tag but ACC96 is cause 0x00D. -/
def accRowOf (r : Row) : Except Cause AccRow :=
  match poisonCheck r with
  | .error c => .error c
  | .ok (r, ev) =>
    if r.md.tag = 0 then .ok { el := List.replicate 32 0, anchor := 0, evs := ev }
    else if r.md.tag = 23 then .ok { el := rowElems r, anchor := r.md.anchor, evs := ev }
    else .error 0x00D

/-- The accumulating reads of some rows. -/
def accRowsOf (t : Tile) (c row0 : Nat) : Nat → Except Cause (List AccRow)
  | 0 => .ok []
  | n + 1 =>
    match both (accRowOf (nth t.rows (tileRowNo c row0) {})) (accRowsOf t c (row0 + 1) n) with
    | .ok (r, rs) => .ok (r :: rs)
    | .error c => .error c

/-- An ACC96 row (R208). -/
def accRow (el : List Nat) (anchor : BitVec 16) : Row := mkRow 23 el 0 anchor

/-! ## MZERO and MANC (R210) -/

/-- Whether row `m` of a tile is active: position 16·m (R207). -/
def unitActive (g : QReg) (m : Nat) : Bool := g.getLsbD (16 * m)

/-- The units (rows or columns) of a tile that a guard makes active. -/
def activeUnits (g : QReg) : List Nat := (List.range 32).filter (unitActive g)

/-- The anchor operand outside −32,768 … 32,767. -/
def badAnchor (v : Word) : Bool := v.toInt < -32768 || 32767 < v.toInt

/-- The reading of the rows whose slots MZERO keeps (R208): poison and tag are checked, and the events count. -/
def State.mzeroKept (s : State) (c : Nat) : List Nat → Except Cause (List Nat)
  | [] => .ok []
  | m :: ms =>
    match both (accRowOf (nth s.curTile.rows (tileRowNo c m) {})) (s.mzeroKept c ms) with
    | .ok (r, ev) => .ok (r.evs ++ ev)
    | .error e => .error e

/-- MZERO: active rows become zero slots at the anchor, landing at issue + 2; the rows it keeps are read and untouched
(R208, R210). It reads them in its issue tc, which the spec leaves open: R212 gives the instructions that read in another
tc, and MZERO is none of them. DESIGN CHOICE (log entry 77). -/
def execMzero (h : Head) (o : Ops) (s : State) :=
  let kept (g : QReg) (s : State) := s.mzeroKept (accNo o.d) ((List.range 32).filter (fun m => !unitActive g m))
  laneWord [2] (.mzero h o) h s
    (fun g s => when (badAnchor (s.intVal o.a o.c)) 0x004 ++ causeIn (kept g s))
    (fun g s => match kept g s with
      | .error _ => s
      | .ok ev => s.post 2 ((activeUnits g).map (fun m =>
          .tileRow (tileRowNo (accNo o.d) m) (accRow (List.replicate 32 0) ((s.intVal o.a o.c).setWidth 16)))) (tally ev))

/-- One slot moved from anchor `ao` to anchor `an` (R210). -/
def moveSlot (ao an : Int) (c : Nat) : Nat × List Nat :=
  let v := accInt c
  match accUnits (v, ao - an) with
  | none => (accFlag (accPut c 0) 3, [7])
  | some (q, inexact) => (accPut c q, if inexact then [4] else [])

/-- The rows MANC reads and rewrites. -/
def State.mancRows (s : State) (c : Nat) (an : BitVec 16) : List Nat → Except Cause (List Land × List Nat)
  | [] => .ok ([], [])
  | m :: ms =>
    match both (accRowOf (nth s.curTile.rows (tileRowNo c m) {})) (s.mancRows c an ms) with
    | .error e => .error e
    | .ok (r, ls, ev) =>
      let rs := r.el.map (moveSlot r.anchor.toInt an.toInt)
      .ok (.tileRow (tileRowNo c m) (accRow (rs.map Prod.fst) an) :: ls, r.evs ++ rs.flatMap Prod.snd ++ ev)

/-- MANC (R210). -/
def execManc (h : Head) (o : Ops) (s : State) :=
  let rows (g : QReg) (s : State) := s.mancRows (accNo o.d) ((s.intVal o.a o.c).setWidth 16) (activeUnits g)
  laneWord [2] (.manc h o) h s
    (fun g s => when (badAnchor (s.intVal o.a o.c)) 0x004 ++ causeIn (rows g s))
    (fun g s => match rows g s with
      | .ok (ls, ev) => s.post 4 ls (tally ev)
      | .error _ => s)

/-! ## Ports and occupancy (R213, R215) -/

/-- Row reads by tc that a class 0x1 operand makes; a lane makes none. -/
def portReads (rs : List (Nat × Sel)) : List Nat :=
  rs.filterMap (fun r => match r.2 with
    | .v _ => some r.1
    | _ => none)

/-- Cause 0x04B when more than two rows would be read in one tc. -/
def State.mxPortHazards (s : State) (ts : List Nat) : List Hazard :=
  let all := s.curTile.mxReads ++ ts
  when (ts.any (fun t => 2 < all.count t)) 0x04B

/-- The state with row reads reserved. -/
def State.useMxPorts (s : State) (ts : List Nat) : State :=
  let t := s.curTile
  s.setCurTile { t with mxReads := t.mxReads ++ ts }

/-- Whether a job occupies the array at tc `u`. -/
def MxJob.occupies (j : MxJob) (u : Nat) : Bool :=
  match j.kind with
  | .mwr _ | .macc _ => false
  | _ => j.issued ≤ u && u < j.issued + j.passes

/-- Whether a job uses plane `n`. -/
def MxJob.usesPlane (j : MxJob) (n : Nat) : Bool :=
  match j.kind with
  | .mma p | .mmat p => p == n
  | .mmas _ => true
  | _ => false

/-- Whether an MLDB landing in tc `u` meets a plane in use (R213). -/
def Tile.planeBusy (t : Tile) (n u : Nat) : Bool :=
  t.mx.any (fun j => j.usesPlane n && j.issued < u && u < j.issued + j.passes)

/-- Whether an MLDB in flight lands on a plane in `ns` in tc `lo` to `hi`. -/
def Tile.loadPending (t : Tile) (ns : List Nat) (lo hi : Nat) : Bool :=
  t.pend.any (fun r => lo ≤ r.due && r.due ≤ hi && r.what.any (fun l => match l with
    | .planePart n _ _ => ns.contains n
    | _ => false))

/-! ## MLDB (R211) -/

/-- The source a matrix word reads in its issue tc, as a row read. -/
def issueReads (s : State) (x : Sel) : List Nat := portReads [(s.tc, x)]

/-- MLDB: a part of a plane, landing at issue + 2. -/
def execMldb (h : Head) (o : Ops) (m : VMod) (s : State) :=
  let n := if m.x then 1 else 0
  laneWord [2] (.mldb h o m) h s
    (fun _ s => causeIn (s.opnd o.d o.c m.ty m.ftz) ++ s.mxPortHazards (issueReads s o.d)
      ++ when (s.curTile.planeBusy n (s.tc + 2)) 0x04B)
    (fun _ s => match s.opnd o.d o.c m.ty m.ftz with
      | .error _ => s
      | .ok a => (s.useMxPorts (issueReads s o.d)).post 2
          [.planePart n (immVal o.a).toNat (mkRow m.ty a.el a.scales)] (tally a.allEvents))

/-! ## MMA, MMAS and MMAT (R212 to R218) -/

/-- A physical row, or a lane at station 1, read raw in tc `tc`. -/
def Tile.mxRead (t : Tile) (x : Sel) (tc : Nat) : Except Cause Raw :=
  match x with
  | .v n => poisonCheck (nth t.rows n.toNat {})
  | .lane aw n =>
    match t.tap aw n 1 tc with
    | some r => poisonCheck r
    | none => .error 0x050
  | _ => .ok ({}, [])

/-- Some reads of an A operand as format `f`: the rows and the events that count once. -/
def Tile.mxReadAll (t : Tile) (f : BitVec 5) (ftm : Bool) (tc : Nat) : List Sel → Except Cause (List Row × List Nat)
  | [] => .ok ([], [])
  | x :: xs =>
    let one : Except Cause Raw := match t.mxRead x tc with
      | .error c => .error c
      | .ok r => match readAs f ftm r with
        | .error c => .error c
        | .ok _ => .ok r
    match both one (t.mxReadAll f ftm tc xs) with
    | .error c => .error c
    | .ok (r, rs, ev) => .ok (r.1 :: rs, r.2 ++ ev)

/-- The reads of a job that fall in tc `tc`. -/
def MxJob.due (j : MxJob) (tc : Nat) : List Sel := (j.reads.filter (fun r => r.1 == tc)).map Prod.snd

/-- The job after its reads of tc `tc`. -/
def MxJob.readNow (j : MxJob) (t : Tile) (tc : Nat) : Except Cause MxJob :=
  match t.mxReadAll j.f j.ftm tc (j.due tc) with
  | .error c => .error c
  | .ok (rs, ev) =>
    .ok { j with
      reads := j.reads.filter (fun r => r.1 != tc)
      got := j.got ++ rs
      evs := j.evs ++ tally ev }

/-- The reads of an A operand issued at tc `t` (R214). -/
def State.aReads (s : State) (x : Sel) (f : BitVec 5) : List (Nat × Sel) :=
  (List.range (aRowCount f)).map (fun i => match x with
    | .v n => (s.tc + i / 2, .v (BitVec.ofNat 8 (s.strm.physV (n + BitVec.ofNat 8 i))))
    | x => (s.tc + i, x))

/-- Whether the A operand can be read in time (R214). -/
def aFits (x : Sel) (f : BitVec 5) (p : Nat) : Bool :=
  match x with
  | .v _ => aRowCount f ≤ 2 * p
  | _ => aRowCount f ≤ p

/-- The job of an occupying instruction, before its first reads. -/
def State.mxJob (s : State) (o : Ops) (m : VMod) (g : QReg) (kind : MxKind) (planes : List Plane) (p : Nat) : MxJob :=
  { issued := s.tc, passes := p, addr := s.addr, kind := kind, tile := accNo o.d, f := m.ty, ftz := m.ftz,
    ftm := s.strm.ftm, z := m.z, act := g, planes := planes, reads := s.aReads o.a m.ty, got := [], evs := [] }

/-- The causes of an occupying instruction; `clash` says that its planes carry two formats, so that it has no number of
passes that its A operand could exceed (R218). -/
def State.mxHazards (s : State) (o : Ops) (m : VMod) (j : MxJob) (ns : List Nat) (clash : Bool := false) : List Hazard :=
  let t := s.curTile
  when (t.mx.any (fun k => k.occupies s.tc)) 0x04B ++ when (t.loadPending ns (s.tc + 1) (s.tc + j.passes - 1)) 0x04B
    ++ s.mxPortHazards (portReads j.reads) ++ when (!clash && !aFits o.a m.ty j.passes) 0x00B ++ causeIn (j.readNow t s.tc)

/-- The state with an occupying instruction at work. -/
def State.startMx (s : State) (j : MxJob) : State :=
  match j.readNow s.curTile s.tc with
  | .error _ => s
  | .ok j' =>
    let t := s.curTile
    (s.setCurTile { t with mx := t.mx ++ [j'] }).useMxPorts (portReads j.reads)

/-- MMA and MMAT. -/
def mmaWord (i : Instr) (h : Head) (o : Ops) (m : VMod) (kind : Nat → MxKind) (s : State) :
    Host.Outcome State Fault Refusal :=
  let n := if m.x then 1 else 0
  let job (g : QReg) (s : State) : MxJob :=
    let p := nth s.curTile.planes n {}
    s.mxJob o m g (kind n) [p] (passesOf p.tag)
  laneWord [2] i h s (fun g s => s.mxHazards o m (job g s) [n]) (fun g s => s.startMx (job g s))

/-- MMA (R217). -/
def execMma (h : Head) (o : Ops) (m : VMod) (s : State) := mmaWord (.mma h o m) h o m .mma s

/-- MMAT (R217). -/
def execMmat (h : Head) (o : Ops) (m : VMod) (s : State) := mmaWord (.mmat h o m) h o m .mmat s

/-- Offsets strictly ascending within 0 … 63 (R218). -/
def ascending : List Nat → Bool
  | [] => true
  | [x] => x ≤ 63
  | x :: y :: rest => x < y && ascending (y :: rest)

/-- The job of an MMAS: both planes, and the 32 offsets it pops. With both planes empty it takes the 2 passes that R205 gives an MMA
on an empty plane; R218 does not say (DESIGN CHOICE, log entry 94). -/
def State.mmasJob (s : State) (o : Ops) (m : VMod) (g : QReg) : MxJob :=
  let t := s.curTile
  let p0 := nth t.planes 0 {}
  let p1 := nth t.planes 1 {}
  s.mxJob o m g (.mmas (t.popped 32)) [p0, p1] (passesOf (if p0.tag = 0 then p1.tag else p0.tag))

/-- MMAS (R218). Of popped entries that hold a poison mark and do not ascend either, the cause is 0x080 alone: a marked entry has no
offset to compare (DESIGN CHOICE, log entry 105). -/
def execMmas (h : Head) (o : Ops) (m : VMod) (s : State) :=
  laneWord [2] (.mmas h o m) h s
    (fun g s =>
      let t := s.curTile
      let p0 := nth t.planes 0 {}
      let p1 := nth t.planes 1 {}
      let clash := p0.tag != 0 && p1.tag != 0 && p0.tag != p1.tag
      s.mxHazards o m (s.mmasJob o m g) [0, 1] clash ++ t.popHazards 32 ++ s.popHorizon (guardTargetsQ h s)
        ++ when ((t.popHazards 32).isEmpty && !ascending (t.popped 32)) 0x04C ++ when clash 0x00D)
    (fun g s =>
      let j := s.mmasJob o m g
      (s.setCurTile (s.curTile.pop 32)).startMx j)
    (fun s => s.lateGuard (fun s => s.popHorizon (guardTargetsQ h s) true))

/-- The A elements of a job in flattened order, with the NaN blocks among them and the events of reading them. Each row that is converted
counts event 11, and a NaN block that its conversion forms counts event 5 both there (04_numbers R106) and as a NaN block of A (R209):
DESIGN CHOICE, since R110 counts event 11 "once per operand" (log entry 104). -/
def MxJob.aValues (j : MxJob) : List Val × Nat × List Nat :=
  let ops := j.got.map (fun r => match readAs j.f j.ftm (r, []) j.ftz with
    | .ok p => p
    | .error _ => zeroOpnd j.f)
  (ops.flatMap (fun p => p.vals j.ftz),
   (ops.map (fun p => if blockScaled j.f then
      ((List.range (lanes j.f / 32)).filter (fun k => scaleAt p.scales k == 255)).length else 0)).sum,
   ops.flatMap Opnd.allEvents)

/-- The A values that meet row `m`, k = 0 … 31 (Table 4). -/
def MxJob.aRowVals (j : MxJob) (a : List Val) (m : Nat) : List Val :=
  match j.kind with
  | .mmat _ => (List.range 32).map (fun k => (a[32 * k + m]?).getD Val.zero)
  | _ => (a.drop (32 * m)).take 32

/-- The B values of column `n` that they meet. -/
def MxJob.bColVals (j : MxJob) (n : Nat) : List Val :=
  let cols := j.planes.map (fun p => p.column j.ftz n)
  match j.kind with
  | .mmas offs => offs.map (fun k => ((cols[k / 32]?).getD []).getD (k % 32) Val.zero)
  | _ => (cols.head?).getD []

/-- One slot after its 32 products (R217, R209). -/
def mmaSlot (anchor : Int) (xs ys : List Val) (c : Nat) : Nat × List Nat :=
  (xs.zip ys).foldl (fun acc xy =>
    let p := mulV xy.1 xy.2
    let r := accAdd acc.1 p.1 anchor
    (r.1, p.2 ++ r.2 ++ acc.2)) (c, [])

/-- A row of a product: active columns gain their products, others keep or zero their slots. -/
def MxJob.productRow (j : MxJob) (xs : List Val) (cols : List (List Val)) (r : AccRow) : List (Nat × List Nat) :=
  ((r.el.zip cols).zipIdx).map (fun ((c, ys), n) =>
    if unitActive j.act n then mmaSlot r.anchor.toInt xs ys c else (if j.z then 0 else c, []))

/-- The tile result of an MMA, MMAS or MMAT (R217): its writes and events, or the lowest cause its destination raises. -/
def MxJob.product (j : MxJob) (t : Tile) : Except Cause (List Land × List Nat) :=
  match accRowsOf t j.tile 0 32 with
  | .error c => .error c
  | .ok rows =>
    let (a, nanA, evA) := j.aValues
    let cols := (List.range 32).map j.bColVals
    let nanB := ((activeUnits j.act).map (fun n => (j.planes.filter (fun p => p.nanBlock n)).length)).sum
    let out := rows.zipIdx.map (fun (r, m) => (j.productRow (j.aRowVals a m) cols r, r.anchor, m))
    .ok (out.map (fun (el, an, m) => .tileRow (tileRowNo j.tile m) (accRow (el.map Prod.fst) an)),
      evA ++ List.replicate (nanA + nanB) 5 ++ rows.flatMap (·.evs) ++ out.flatMap (fun r => r.1.flatMap Prod.snd))

/-! ## MRD, MWR and MACC (R219 to R221) -/

/-- Tile rows a row of format `f` covers (R219). -/
def rowSpan (f : BitVec 5) : Nat := lanes f / 32

/-- row0 of MRD, MWR and MACC. -/
def rowZeroOf (o : Ops) : Nat := (immVal o.b).toNat

/-- The tile rows MRD reads as ACC96 (R220). -/
def State.mrdRows (s : State) (ftz : Bool) (c row0 : Nat) : Nat → Except Cause (List Opnd)
  | 0 => .ok []
  | n + 1 =>
    let one : Except Cause Opnd := match poisonCheck (nth s.curTile.rows (tileRowNo c row0) {}) with
      | .error e => .error e
      | .ok r => readAs 23 s.strm.ftm r ftz
    match both one (s.mrdRows ftz c (row0 + 1) n) with
    | .ok (r, rs) => .ok (r :: rs)
    | .error e => .error e

/-- What MRD computes (R220). -/
def State.mrdOut (s : State) (o : Ops) (m : VMod) (g : QReg) : Except Cause VOut :=
  let f := m.ty
  match s.mrdRows m.ftz (accNo o.a) (rowZeroOf o) (rowSpan f) with
  | .error c => .error c
  | .ok rows =>
    let on := activeLanes f g
    let rd := ((groupsOf 32 rows.length on).zip rows).flatMap (fun (us, p) => p.events us)
    let slots := rows.flatMap (fun p => p.el.map (fun c => (c, p.anchor.toInt)))
    if f = 23 then
      .ok { f := f, el := slots.map Prod.fst, anchor := (rows.head?.map (·.anchor)).getD 0, act := g, evs := rd }
    else if blockScaled f then
      let vs := slots.map (fun (c, a) => accBlockValue c a)
      let (el, sc, bev) := formBlocks f m.rm.toNat (vs.zipIdx.map (fun (v, i) => (v.1, s.srWord m.rm i)))
      let evs := ((on.zip (vs.zip el)).flatMap (fun (u, v, e) => if u then v.2 ++ e.2 else []))
        ++ ((groupsOf 32 bev.length on).zip bev).flatMap (fun (us, ev) => if us.any id then ev else [])
      .ok { f := f, el := el.map Prod.fst, scales := sc, act := g, evs := rd ++ evs }
    else
      let rs := ((on.zip slots).zipIdx).map (fun ((u, c, a), i) =>
        if u then accOut f m.rm.toNat m.ftz (s.srWord m.rm i) c a else (0, []))
      .ok { f := f, el := rs.map Prod.fst, act := g, evs := rd ++ rs.flatMap Prod.snd }

/-- MRD: rows of a tile as a row or lane of format f, at issue + 6 (R220). -/
def execMrd (h : Head) (o : Ops) (m : VMod) (s : State) :=
  vecWord [2] (.mrd h o m) h 6 o.d m (m.rm == 4) (fun g s => s.mrdOut o m g) s

/-- MWR and MACC: the source is read at issue, the destination at issue + 5 (R221). -/
def mwrWord (i : Instr) (h : Head) (o : Ops) (m : VMod) (kind : MxKind) (s : State) :
    Host.Outcome State Fault Refusal :=
  laneWord [2] i h s (fun _ s => causeIn (s.opnd o.a o.c m.ty m.ftz) ++ s.mxPortHazards (issueReads s o.a))
    (fun g s => match s.raw o.a with
      | .error _ => s
      | .ok (r, ev) =>
        let t := s.curTile
        let j : MxJob := { s.mxJob o m g kind [] 0 with reads := [], got := [r], evs := tally ev }
        (s.setCurTile { t with mx := t.mx ++ [j] }).useMxPorts (issueReads s o.a))

/-- MWR (R221). -/
def execMwr (h : Head) (o : Ops) (m : VMod) (s : State) := mwrWord (.mwr h o m) h o m (.mwr (rowZeroOf o)) s

/-- MACC (R221). -/
def execMacc (h : Head) (o : Ops) (m : VMod) (s : State) := mwrWord (.macc h o m) h o m (.macc (rowZeroOf o)) s

/-- A slot with the special bits of an ACC96 element `x` added to its own. -/
def orFlags (c x : Nat) : Nat :=
  c % 2 ^ 104 + Nat.lor (c / 2 ^ 104 % 16) (x / 2 ^ 104 % 16) * 2 ^ 104

/-- One active slot of MWR or MACC (R221): element `x` of format `f`, with its value and anchor. -/
def accumulate (f : BitVec 5) (x : Nat) (v : Val) (anchor : Int) (an : Int) (c : Nat) : Nat × List Nat :=
  if f = 23 then
    let t := accInt x
    accAdd (orFlags c x) (.fin (t < 0) t.natAbs (anchor - 64) false) an
  else
    let r := accAdd c v an
    (r.1, snanEvents [v] ++ r.2)

/-- Which source lanes feed an active slot: each lane's own position governs it, in a block-scaled format too (R207). -/
def slotLanes (f : BitVec 5) (g : QReg) : List Bool := (List.range (lanes f)).map (fun i => g.getLsbD (i * 512 / lanes f))

/-- The tile result of MWR or MACC (R221). -/
def MxJob.rowsOut (j : MxJob) (t : Tile) (row0 : Nat) (mwr : Bool) : Except Cause (List Land × List Nat) :=
  match accRowsOf t j.tile row0 (rowSpan j.f), readAs j.f j.ftm ((j.got.head?).getD {}, []) j.ftz with
  | .error c, _ => .error c
  | _, .error c => .error c
  | .ok rows, .ok a =>
    let on := slotLanes j.f j.act
    let vals := if j.f = 23 then a.el.map (fun _ => Val.zero) else a.vals j.ftz
    let lanesIn : List (Bool × Nat × Val) := on.zip (a.el.zip vals)
    let out := ((groupsOf 32 rows.length lanesIn).zip rows).zipIdx.map (fun ((ls, r), m) =>
      let el : List (Nat × List Nat) := (ls.zip r.el).map (fun (p : (Bool × Nat × Val) × Nat) =>
        if p.1.1 then accumulate j.f p.1.2.1 p.1.2.2 a.anchor.toInt r.anchor.toInt (if mwr then 0 else p.2)
        else (if j.z then 0 else p.2, []))
      (el, r.anchor, m))
    .ok (out.map (fun (el, an, m) => .tileRow (tileRowNo j.tile (row0 + m)) (accRow (el.map Prod.fst) an)),
      a.events on ++ rows.flatMap (·.evs) ++ out.flatMap (fun r => r.1.flatMap Prod.snd))

/-- The tc in which a job reads its destination (R212, R221). -/
def MxJob.readsDest (j : MxJob) : Nat := j.issued + j.passes + 5

/-- The tile result of a job, from the destination rows as they stand in the tc it reads them. -/
def MxJob.result (j : MxJob) (t : Tile) : Except Cause (List Land × List Nat) :=
  match j.kind with
  | .mwr row0 => j.rowsOut t row0 true
  | .macc row0 => j.rowsOut t row0 false
  | _ => j.product t

end Sys2Proof.Machine
end

