-- ==== Sys2Proof/Machine/Offsets.lean ====
section
/-! DEFINITION. SX's decode jobs and the control of the offset queue, MAJ 0x68 (10_queues R276 to R283). Jobs push their
entries in Timetable. -/

namespace Sys2Proof.Machine

/-- The decode forms (R282). -/
inductive SxForm where
  | bmp
  | rle
  | csr
  | idx (f : BitVec 5)
  deriving DecidableEq, Repr

/-- MIN of a decode form. -/
def SxForm.min : SxForm → Nat
  | .bmp => 0
  | .rle => 1
  | .csr => 2
  | .idx _ => 3

/-- The format a decode form reads its source as; NONE is raw. -/
def SxForm.fmt : SxForm → BitVec 5
  | .bmp => 0
  | .rle => 6
  | .csr => 7
  | .idx f => f

/-- Whether the third operand is in its range: n, or begin and end of rp (R282). -/
def SxForm.cntOk (f : SxForm) (v : Word) : Bool :=
  match f with
  | .bmp => 1 ≤ v.toNat && v.toNat ≤ 4096
  | .rle => 1 ≤ v.toNat && v.toNat ≤ 128
  | .csr => (v.extractLsb' 0 16).toNat ≤ (v.extractLsb' 16 16).toNat && (v.extractLsb' 16 16).toNat ≤ 128
  | .idx t => 1 ≤ v.toNat && v.toNat ≤ idxMost t

/-- A pushed offset, modulo 2^32 and without a poison mark. -/
def entryOf (x : Nat) : BitVec 33 := BitVec.ofNat 33 (x % 2 ^ 32)

/-- The entries of run-length pairs from position `pos` (R282). -/
def rleEntries : Nat → List (Nat × Nat) → List (BitVec 33)
  | _, [] => []
  | pos, (skip, run) :: rest =>
    (List.range run).map (fun k => entryOf (pos + skip + k)) ++ rleEntries (pos + skip + run) rest

/-- The entries a job pushes, from the elements of its source (R282). -/
def sxEntries (min : Nat) (els : List Nat) (base : BitVec 32) (cnt : Word) : List (BitVec 33) :=
  let b := base.toNat
  match min with
  | 0 => ((els.take cnt.toNat).zipIdx.filter (fun e => e.1 == 1)).map (fun e => entryOf (b + e.2))
  | 1 => rleEntries b ((pairsOf els).take cnt.toNat)
  | 2 =>
    let lo := (cnt.extractLsb' 0 16).toNat
    let hi := (cnt.extractLsb' 16 16).toNat
    ((els.take hi).drop lo).map (fun x => entryOf (b + x))
  | _ => (els.take cnt.toNat).map (fun x => entryOf (b + x))

/-- The elements of a source read raw in a decode form's format: single bits for XBMP. -/
def sxElems (f : BitVec 5) (d : RowData) : List Nat := elems (if f = 0 then 1 else elemWidth f) (4096 / (if f = 0 then 1 else elemWidth f)) d.toNat

/-- The elements a row or lane source gives at issue, and its events (R282). -/
def State.sxRead (s : State) (x : Sel) (f : BitVec 5) : Except Cause (List Nat × List Nat) :=
  if f = 0 then
    match s.raw x with
    | .ok (r, ev) => .ok (sxElems 0 r.data, ev)
    | .error c => .error c
  else match s.opnd x (.sel .none 0) f with
    | .ok p => .ok (p.el, p.allEvents)
    | .error c => .error c

/-- The state with a decode job open (R276). -/
def State.openJob (s : State) (waits : List Nat) (src : SxSource) : State :=
  let t := s.curTile
  let q := t.oq
  let j : SxJob := { t0 := s.tc, w0 := s.wc, strict := q.strict, waits := waits, src := src, started := false,
                     finished := false }
  s.setCurTile { t with oq := { q with jobs := q.jobs ++ [j] } }

/-- A decode word. -/
def decodeWord (i : Instr) (h : Head) (o : Ops) (slot : Bool) (g : BitVec 3) (f : SxForm) (s : State) :
    Host.Outcome State Fault Refusal :=
  scalarWord [6] false i h s
    (fun s =>
      let q := s.curTile.oq
      s.regCheck o.b (fun v => !f.cntOk v)
        ++ when (256 ≤ q.jobs.length || (slot && q.strict)) 0x053
        ++ (if slot then s.bankHazards g.toNat (s.regOf o.d).toNat 512 512 else causeIn (s.sxRead o.d f.fmt)))
    (fun s =>
      let base : BitVec 32 := (s.intVal o.a o.c).setWidth 32
      let cnt := s.intVal o.b o.c
      if slot then
        s.openJob ((consumed o.c).filter s.tokBusy)
          (.slot g.toNat ((s.regOf o.d).toNat / 512) f.min f.fmt base cnt)
      else match s.sxRead o.d f.fmt with
        | .error _ => s
        | .ok (els, ev) => s.atIssue ev (fun s => s.openJob [] (.ready (sxEntries f.min els base cnt))))

/-- XBMP: the positions of the ones of a bitmap. -/
def execXbmp (h : Head) (o : Ops) (slot : Bool) (g : BitVec 3) (s : State) :=
  decodeWord (.xbmp h o slot g) h o slot g .bmp s

/-- XRLE: run-length pairs. -/
def execXrle (h : Head) (o : Ops) (slot : Bool) (g : BitVec 3) (s : State) :=
  decodeWord (.xrle h o slot g) h o slot g .rle s

/-- XCSR: a range of columns. -/
def execXcsr (h : Head) (o : Ops) (slot : Bool) (g : BitVec 3) (s : State) :=
  decodeWord (.xcsr h o slot g) h o slot g .csr s

/-- XIDX: indices. -/
def execXidx (h : Head) (o : Ops) (slot : Bool) (g : BitVec 3) (ty : BitVec 5) (s : State) :=
  decodeWord (.xidx h o slot g ty) h o slot g (.idx ty) s

/-- XRATE: the push cap from issue + 1 (R283). -/
def execXrate (h : Head) (o : Ops) (s : State) :=
  scalarWord [6] false (.xrate h o) h s
    (fun s => s.regCheck o.d (fun v => v == 0 || 16 < v.toNat))
    (fun s => s.post 1 [.xrate ((s.intVal o.d o.c).setWidth 5)])

/-- XOFF: the mode from issue + 1; with jobs open cause 0x053 (R283). -/
def execXoff (h : Head) (o : Ops) (strict : Bool) (s : State) :=
  scalarWord [6] false (.xoff h o strict) h s (fun s => when (!s.curTile.oq.jobs.isEmpty) 0x053)
    (fun s => s.post 1 [.xoff strict])

/-- XEND discards entries and jobs at issue + 1 (R283). -/
def execXend (h : Head) (o : Ops) (s : State) :=
  scalarWord [6] false (.xend h o) h s noHazard (fun s => s.post 1 [.xend])

/-- XCNT: jobs and pops after the pops of its tc, at issue + 1 (R283). -/
def execXcnt (h : Head) (o : Ops) (s : State) :=
  scalarWord [6] false (.xcnt h o) h s noHazard
    (fun s => s.post 1 [.xcnt s.strmNo (s.strm.physA (aReg o.d))])

end Sys2Proof.Machine
end

