-- ==== Sys2Proof/Machine/Landing.lean ====
section
/-! DEFINITION. Timed writes landing at the start of a tc: write collisions, two results of one kind, merges, lanes, slots,
semaphores, tokens, the offset queue, BIND, ST64, the clearing of a safe point, and the counting of events (02_execution
R33, R34; 06_vector_rows R175, R176; 10_queues R275, R283; 11_tables R301; 12_endpoints R325; 05_control_registers R142). -/

namespace Sys2Proof.Machine

/-! ## Collisions -/

/-- What two writes landing in one tc may not share (R34; 10_queues R275 for lanes). -/
inductive Key where
  | reg (t : Target)
  | cr (k : Nat) (num : BitVec 8)
  | row (n : Nat)
  | lane (aw : Bool) (n : BitVec 3) (station : Nat)
  deriving DecidableEq, Repr

/-- The keys of a write to a register or row. -/
def Land.keys : Land → List Key
  | .a k n _ => [.reg (.a k n)]
  | .b k n _ => [.reg (.b k n)]
  | .p k n _ => [.reg (.p k n)]
  | .q k n _ _ => [.reg (.q k n)]
  | .cr k num _ => [.cr k num]
  | .row n _ _ _ _ _ => [.row n]
  | .rowRaw n _ => [.row n]
  | .tileRow n _ => [.row n]
  | .xcnt k n => if n = 0 then [] else [.reg (.a k n)]
  | .st64 rd _ => if rd = 0 then [] else [.reg (.a 0 rd)]
  | .eret _ => [.cr 0 0x43]
  | _ => []

/-- The writes a later horizon check sees (05_control_registers R144; 08_memories R244). -/
def Land.targets : Land → List Target
  | .a k n _ => [.a k n]
  | .b k n _ => [.b k n]
  | .p k n _ => [.p k n]
  | .q k n _ _ => [.q k n]
  | .xcnt k n => if n = 0 then [] else [.a k n]
  | .st64 rd _ => if rd = 0 then [] else [.a 0 rd]
  | .semAdd n _ => [.sem n]
  | .semSub n c => if c = 0 then [] else [.sem n]
  | .mtxTake n _ => [.mtx n]
  | .mtxFree n => [.mtx n]
  | .tokOut k => [.tok k]
  | .xoff _ => [.xoff]
  | .xend => [.xend]
  | _ => []

/-- Whether record `r` was issued later than `q`: by tc, then by stream (R34). -/
def Pend.laterThan (r q : Pend) : Bool := q.issued < r.issued || (q.issued == r.issued && q.strm < r.strm)

/-- A trap against the word of a record. -/
def Pend.trap (r : Pend) (x : Nat) (c : Cause) (ea : Word := 0) : TrapRec :=
  { cause := c, tile := x, strm := r.strm, addr := r.addr, ea := ea }

/-- The key of a placement on a lane. -/
def Land.laneKeys : Land → List Key
  | .lane aw n st _ => [.lane aw n st]
  | _ => []

/-- The keys of a record; a steward delivery's writes (stream 9) prevail and collide with nothing. -/
def Pend.keysOf (keys : Land → List Key) (r : Pend) : List Key := if r.strm = 9 then [] else r.what.flatMap keys

/-- Whether a record shares a key with an earlier-issued one that lands in the same tc. -/
def Pend.clashes (keys : Land → List Key) (rs : List Pend) (r : Pend) : Bool :=
  rs.any (fun q => q.due == r.due && r.laterThan q && (r.keysOf keys).any (q.keysOf keys).contains)

/-- The lane collisions among the records landing in one tc (10_queues R275). -/
def laneCollisions (x : Nat) (due : List Pend) : List TrapRec :=
  (due.filter (fun r => r.clashes Land.laneKeys due)).map (fun r => r.trap x 0x051)

/-- The kind of result a write is for the limit of R176: row or lane, q, a or p; none for any other. -/
def Land.kind : Land → Option Nat
  | .row _ _ _ _ _ _ | .rowRaw _ _ | .tileRow _ _ | .lane _ _ _ _ => some 0
  | .q _ _ _ _ => some 1
  | .a _ _ _ | .p _ _ _ => some 2
  | _ => none

/-- Whether a record is that of LPSET or LPEND, whose stage predicates are loop state and no result (05_control_registers
R155, R156; log entry 21). -/
def Pend.loops (r : Pend) : Bool :=
  r.what.any (fun l => match l with
    | .cr _ num _ => num == 0x02
    | _ => false)

/-- The kinds of result of a record. -/
def Pend.kinds (r : Pend) : List Nat := if r.loops then [] else r.what.filterMap Land.kind

/-- Whether a record of MX, VA, VB or SF gives a second result of one kind in its landing tc (06_vector_rows R176). The two
predicates of one CMP or PSET count as one result (DESIGN CHOICE: R176 does not say; log entry 73). -/
def Pend.doubles (rs : List Pend) (r : Pend) : Bool :=
  2 ≤ r.strm && r.strm ≤ 5
    && rs.any (fun q => q.due == r.due && q.strm == r.strm && r.laterThan q && r.kinds.any q.kinds.contains)

/-- The tile result a matrix job will land (07_accumulators R204, R212, R221), as a record without its values. -/
def MxJob.promise (j : MxJob) : Pend :=
  let rows : List Nat := match j.kind with
    | .mwr row0 | .macc row0 => (List.range (rowSpan j.f)).map (fun m => row0 + m)
    | _ => List.range 32
  { due := j.readsDest + 1, issued := j.issued, strm := 2, addr := j.addr, evs := [],
    what := rows.map (fun m => .tileRow (tileRowNo j.tile m) {}) }

/-- The cause of a word of stream `k` at code address `a`, issued on a tile in tc `u`, whose writes collide with those already
due in the tc they would land in, or give a second result of one kind there (R34, R176; log entry 28). -/
def Tile.issueTrap (t : Tile) (u k : Nat) (a : Word) : Option Cause :=
  let rs := t.pend ++ t.mx.map MxJob.promise
  let own := rs.filter (fun r => r.issued == u && r.strm == k && r.addr == a)
  if own.any (fun r => r.clashes Land.keys rs) then some 0x040
  else if own.any (fun r => r.doubles rs) then some 0x04A else none

/-! ## What a trap takes back (00_scope R10) -/

/-- Whether a change is that of the word of stream `k` at code address `a`, issued in tc `u`. -/
def EarlyWrite.by_ (e : EarlyWrite) (k u : Nat) (a : Word) : Bool := e.strm == k && e.issued == u && e.addr == a

/-- What the word issuing on stream `k` has changed of tile `t`, which it leaves as `v`: draw counter, offset queue, channels. -/
def Tile.changes (t v : Tile) (k : Nat) : List Early :=
  let n := v.oq.taken - t.oq.taken
  (if (v.strm k).draw == (t.strm k).draw then [] else [.draw])
    ++ (if n = 0 then [] else [.pops (t.oq.entries.take n)])
    ++ ((List.range 16).filter (fun i => (nth v.chans i []).length != (nth t.chans i []).length)).map (fun i =>
      .chan i ((nth t.chans i []).headD {}))

/-- The word of a record or of a matrix job in flight on a tile. -/
def Tile.inFlight (t : Tile) (k u : Nat) (a : Word) : Bool :=
  t.pend.any (fun r => r.strm == k && r.issued == u && r.addr == a) || t.mx.any (fun j => k == 2 && j.issued == u && j.addr == a)

/-- The state `t` in which the word issued in `s` has left its writes, with what it has changed already noted while they are in
flight. -/
def State.note (s t : State) : State :=
  match s.core with
  | .tile b x k =>
    let v := t.tile b x
    match (s.tile b x).changes v k with
    | [] => t
    | es =>
      if v.inFlight k s.tc s.addr then
        t.setTile b x { v with early := v.early ++ es.map (fun e => { strm := k, issued := s.tc, addr := s.addr, what := e }) }
      else t
  | .steward _ => t

/-- One change of a word of stream `k` taken back. -/
def Tile.undo (t : Tile) (k : Nat) : Early → Tile
  | .draw => t.setStrm k { t.strm k with draw := (t.strm k).draw - 1 }
  | .pops es =>
    let q := t.oq
    { t with oq := { q with entries := es ++ q.entries, pops := q.pops - BitVec.ofNat 32 es.length, taken := q.taken - es.length } }
  | .chan n v => { t with chans := put t.chans n (v :: nth t.chans n []) }
  | .fresh g n => t.setSlot g n { t.slot g n with fresh := true }

/-- A tile without what the word of stream `k` at code address `a`, issued in tc `u`, has changed: it has raised a trap. -/
def Tile.takeBack (t : Tile) (k u : Nat) (a : Word) : Tile :=
  (t.early.filter (fun e => e.by_ k u a)).foldl (fun t e => t.undo k e.what)
    { t with early := t.early.filter (fun e => !e.by_ k u a) }

/-- Whether a write makes an earlier change void: what it changed has been written since. -/
def Land.voids : Land → Early → Bool
  | .slot g n _ _ _ _ _, .fresh h m => g == h && n == m
  | .slotBytes g ea _ _, .fresh h m => g == h && ea / 512 == m
  | .slotFill g n _ _, .fresh h m => g == h && n == m
  | .unfresh g n, .fresh h m => g == h && n == m
  | .xend, .pops _ => true
  | _, _ => false

/-- The fresh mark that a write of record `r` clears on tile `t`, while the record's word has others in flight. -/
def Tile.cleared (t : Tile) (r : Pend) : List EarlyWrite :=
  r.what.filterMap (fun l => match l with
    | .unfresh g n => if (t.slot g n).fresh then some { strm := r.strm, issued := r.issued, addr := r.addr, what := .fresh g n } else none
    | _ => none)

/-- What a word leaves once its writes are known: a word that collides raises its trap and does nothing else (00_scope R10). `s`
is the state it issued in, `t` the state its meaning gives. -/
def State.settle (s t : State) : State :=
  match s.core with
  | .tile b x k =>
    match (t.tile b x).issueTrap s.tc k s.addr with
    | some c => s.raise c
    | none => s.note t
  | .steward _ => t

/-! ## One write -/

/-- A stream after a write of one of its control registers (05_control_registers Tables 3, 4 and 11; 03_encoding R79). -/
def Strm.setCr (u : Strm) (num : Nat) (v : Word) : Strm :=
  match num with
  | 0x02 => { u with lcnt := v.extractLsb' 0 40 }
  | 0x03 => { u with lbndN := v.extractLsb' 0 32, lbndS := v.extractLsb' 32 4 }
  | 0x04 => { u with ra := v.extractLsb' 0 4, rp := v.extractLsb' 8 3, rv := v.extractLsb' 16 7 }
  | 0x10 => { u with ftm := v.getLsbD 0 }
  | 0x12 => { u with evsel := v.extractLsb' 0 4 }
  | 0x19 => { u with pmsel := v.extractLsb' 0 6 }
  | 0x1B => { u with bcsel := v.extractLsb' 0 4 }
  | _ => u

/-- A row written on a tile. -/
def Tile.setRow (t : Tile) (n : Nat) (v : Row) : Tile := { t with rows := put t.rows n v }

/-- A slot after a write of `n` bytes at bank address `ea` (08_memories R228, R229, R233), and its cause: a poisoned slot
is first read, an uncorrectable soft error is met by that read (R250; log entry 16), and a NONE slot becomes a UINT8 slot. -/
def Slot.store (x : Slot) (ea n : Nat) (v : Word) : Slot × Option Cause × List Nat :=
  let (base, ev, c) : Slot × List Nat × Option Cause :=
    if x.bad then (x, [], some 0x141)
    else if x.poison then (if x.zs then ({ seq := x.seq }, [12], none) else (x, [], some 0x080)) else (x, [], none)
  let off := 8 * (ea % 512)
  let m := 2 ^ (8 * n)
  let d := base.data.toNat
  let data := BitVec.ofNat 4096 (d % 2 ^ off + v.toNat % m * 2 ^ off + d / (2 ^ off * m) * (2 ^ off * m))
  ({ base with data := data, tag := if base.tag = 0 then 5 else base.tag, fresh := false, poison := false, zs := false },
   c, ev)

/-- The logical names of the physical registers of a stream (05_control_registers R128). -/
def Strm.logA (u : Strm) (i : Nat) : Nat := if i < 16 then i else 16 + (i - 16 + u.ra.toNat) % 16
def Strm.logP (u : Strm) (i : Nat) : Nat := if i < 8 then i else 8 + (i - 8 + u.rp.toNat) % 8
def Strm.logV (u : Strm) (i : Nat) : Nat := if i < 128 then i else 128 + (i - 128 + u.rv.toNat) % 128

/-- A stream with the registers cleared that its mask and its q mask do not name (R142, 11_tables R303). -/
def Strm.clearDead (u : Strm) (k : Nat) (e : Live) : Strm :=
  let m := (e.masks[k]?).getD 0
  let spareQ (i : Nat) : Bool := i = 0 || k < 2 || 5 < k || e.q.getLsbD (16 * (k - 2) + u.logP i)
  { u with
    a := Vector.ofFn (fun i : Fin 32 => if i.val = 0 || m.getLsbD (u.logA i.val) then u.a[i.val] else 0)
    b := Vector.ofFn (fun i : Fin 8 => if m.getLsbD (32 + i.val) then u.b[i.val] else 0)
    p := Vector.ofFn (fun i : Fin 16 => if i.val = 0 || m.getLsbD (40 + u.logP i.val) then u.p[i.val] else false)
    q := Vector.ofFn (fun i : Fin 16 => if spareQ i.val then u.q[i.val] else 0) }

/-- The registers of a tile that the clearing of a safe point writes, as targets of the horizon check (R144; log entry 32). -/
def Tile.deadTargets (t : Tile) (e : Live) : List Target :=
  (List.range 9).flatMap (fun k =>
    let u := t.strm k
    let m := (e.masks[k]?).getD 0
    ((List.range 32).filter (fun i => i != 0 && !m.getLsbD (u.logA i))).map (Target.a k)
      ++ ((List.range 8).filter (fun i => !m.getLsbD (32 + i))).map (Target.b k)
      ++ ((List.range 16).filter (fun i => i != 0 && !m.getLsbD (40 + u.logP i))).map (Target.p k)
      ++ (if k < 2 ∨ 5 < k then [] else
          ((List.range 16).filter (fun i => i != 0 && !e.q.getLsbD (16 * (k - 2) + u.logP i))).map (Target.q k)))

/-- The writes of a landing on a tile that a later horizon check sees. -/
def Tile.targetsOf (t : Tile) : Land → List Target
  | .clear e => t.deadTargets e
  | l => l.targets

/-- The clearing of a safe point: registers, rows and planes the liveness entry does not name (R142; 06_vector_rows R170;
07_accumulators R205; 11_tables R303: masks name logical registers, a row mask those of every stream). -/
def Tile.clearDead (t : Tile) (e : Live) : Tile :=
  let spareRow (n : Nat) : Bool := (List.range 9).any (fun k => e.rows.getLsbD ((t.strm k).logV n))
  { t with
    strms := Vector.ofFn (fun k : Fin 9 => t.strms[k.val].clearDead k.val e)
    rows := Vector.ofFn (fun n : Fin 256 => if spareRow n.val then t.rows[n.val] else {})
    planes := Vector.ofFn (fun n : Fin 2 => if e.planes.getLsbD n.val then t.planes[n.val] else {}) }

/-- The liveness entry of the SAFE at word `off` of a function of tile `x`; nothing is live without one (R142). -/
def Bay.liveAt (y : Bay) (x : Nat) (fn : BitVec 24) (off : Nat) : Live :=
  let none_ : Live := { off := off, masks := [], rows := 0, q := 0, planes := 0 }
  match y.fnOf x fn with
  | some f => (f.live.find? (fun e => e.off == off)).getD none_
  | none => none_

/-- One write landing on a tile in tc `u`: the tile, the causes it raises, and the events of a merge. -/
def Tile.apply (u : Nat) (t : Tile) : Land → Tile × List Hazard × List Nat
  | .a k n v => (t.setStrm k { t.strm k with a := put (t.strm k).a n v }, [], [])
  | .b k n v => (t.setStrm k { t.strm k with b := put (t.strm k).b n v }, [], [])
  | .p k n v => (t.setStrm k { t.strm k with p := put (t.strm k).p n v }, [], [])
  | .cr k num v => (t.setStrm k ((t.strm k).setCr num.toNat v), [], [])
  | .q k n mask v =>
    let old := nth (t.strm k).q n 0
    (t.setStrm k { t.strm k with q := put (t.strm k).q n ((v &&& mask) ||| (old &&& ~~~mask)) }, [], [])
  | .row n act z ftm ftz v =>
    match mergeRow v act z ftm (some (nth t.rows n {})) ftz with
    | .ok (w, ev) => (t.setRow n w, [], ev)
    | .error c => (t, [(c, 0)], [])
  | .rowRaw n v => (t.setRow n v, [], [])
  | .tileRow n v => (t.setRow n v, [], [])
  | .lane aw n st v =>
    if t.lanes.any (fun w => w.isAt aw n st u) then (t, [(0x051, 0)], [])
    else ({ t with lanes := t.lanes ++ [{ aw := aw, n := n, station := st, tc := u, v := v }] }, [], [])
  | .planePart n q v => ({ t with planes := put t.planes n ((nth t.planes n {}).load q v) }, [], [])
  | .slot g n _ data scales tag anchor => (t.setSlot g n ((t.slot g n).put data scales tag anchor), [], [])
  | .slotBytes g ea n v =>
    match (t.slot g (ea / 512)).store ea n v with
    | (x, none, ev) => (t.setSlot g (ea / 512) x, [], ev)
    | (_, some c, _) => (t, [(c, BitVec.ofNat 64 ea)], [])
  | .slotFill g n v _ => (t.setSlot g n v, [], [])
  | .unfresh g n => (t.setSlot g n { t.slot g n with fresh := false }, [], [])
  | .semAdd n c =>
    let m := nth t.sems n {}
    if 2 ^ 32 ≤ m.count.toNat + c.toNat then (t, [(0x056, 0)], [])
    else ({ t with sems := put t.sems n { m with count := m.count + c } }, [], [])
  | .semSub n c =>
    let m := nth t.sems n {}
    ({ t with sems := put t.sems n { m with count := m.count - c } }, [], [])
  | .mtxTake n owner => ({ t with mtxs := put t.mtxs n { nth t.mtxs n {} with held := true, owner := owner } }, [], [])
  | .mtxFree n => ({ t with mtxs := put t.mtxs n { nth t.mtxs n {} with held := false } }, [], [])
  | .tokOut k => ({ t with toks := put t.toks k { nth t.toks k {} with out := true } }, [], [])
  | .tokEmpty k =>
    let busy := (nth t.toks k {}).out || t.pend.any (fun q => q.due == u && q.what.contains (.tokOut k))
    (if busy then t else { t with toks := put t.toks k { nth t.toks k {} with empty := true, flt := false } }, [], [])
  | .bind _ _ _ _ => (t, [], [])
  | .st64 _ _ => (t, [], [])
  | .xrate v => ({ t with oq := { t.oq with rate := v } }, [], [])
  | .xoff v => ({ t with oq := { t.oq with strict := v, freeTc := 0 } }, [], [])
  | .xend => ({ t with oq := { t.oq with entries := [], jobs := [], pops := 0, freeTc := 0 } }, [], [])
  | .xcnt k n =>
    let v : Word := BitVec.ofNat 64 (t.oq.jobs.length % 512 * 2 ^ 32 + t.oq.pops.toNat)
    (if n = 0 then t else t.setStrm k { t.strm k with a := put (t.strm k).a n v }, [], [])
  | .clear e => (t.clearDead e, [], [])
  | .eret _ => (t, [], [])

/-! ## A tile's landings -/

/-- The records of a tile due by tc `u`, in stream order. -/
def Tile.dueBy (t : Tile) (u : Nat) : List Pend :=
  let due := t.pend.filter (fun r => r.due ≤ u)
  (List.range 10).flatMap (fun k => due.filter (fun r => r.strm == k))

/-- The writes of one record in order. -/
def Tile.applyAll (u : Nat) (t : Tile) : List Land → Tile × List Hazard × List Nat
  | [] => (t, [], [])
  | l :: ls =>
    let (t, hs, ev) := t.apply u l
    let (t, hs', ev') := t.applyAll u ls
    (t, hs ++ hs', ev ++ ev')

/-- A landing in progress on a tile: the tile, the traps raised, and the event classes that crossed a threshold. -/
structure Landed where
  t : Tile
  traps : List TrapRec := []
  crossed : List Nat := []

/-- Whether a write is a gateway fill that follows the write of a BSCT or BATM. -/
def Land.isFill : Land → Bool
  | .slotFill _ _ _ _ => true
  | _ => false

/-- One record landing, with the events of its results (13_counters R350, R351). One that raises a trap of its own writes
nothing and counts no event (00_scope R10); one whose events cross a threshold that traps writes nothing and its events
count. A gateway fill that waited for it is no write of its word, and lands. In a bay that a trap has stopped no threshold traps (15_traps R376, R377). -/
def Landed.add (y : Bay) (u x : Nat) (w : Landed) (r : Pend) : Landed :=
  let (t, hs, ev) := w.t.applyAll u r.what
  let es := if hs.isEmpty then r.evs ++ tally ev else []
  let (t, ks) := t.addEvents y.countsInexact es
  let ts := hs.map (fun h => r.trap x h.1 h.2)
    ++ (ks.filter (fun k => y.evTrap k && y.phase != .trapped)).map (fun k => r.trap x (BitVec.ofNat 9 (0x0C0 + k)))
  let t := if ts.isEmpty then t else ((w.t.applyAll u (r.what.filter Land.isFill)).1.addEvents y.countsInexact es).1
  { t := { t with hist := t.hist ++ (r.what.flatMap w.t.targetsOf).map (fun g => (u, g)) }
    traps := w.traps ++ ts
    crossed := w.crossed ++ ks }

/-- One record landing, with what it changes before the other writes of its word noted. -/
def Landed.land (y : Bay) (u x : Nat) (w : Landed) (r : Pend) : Landed :=
  let v := w.add y u x r
  if v.traps.length != w.traps.length then v
  else { v with t := { v.t with early := v.t.early.filter (fun e => !r.what.any (fun l => l.voids e.what)) ++ w.t.cleared r } }

/-- A landing with what the words that have raised a trap changed before taken back (00_scope R10), and nothing kept of words that
have landed. -/
def Landed.over (w : Landed) (due : List Pend) : Landed :=
  let bad := due.filter (fun r => w.traps.any (fun q => q.strm == r.strm && q.addr == r.addr))
  let t := bad.foldl (fun t r => t.takeBack r.strm r.issued r.addr) w.t
  { w with t := { t with early := t.early.filter (fun e => t.inFlight e.strm e.issued e.addr) } }

/-- Everything due on tile `x` in tc `u`. A word whose placement collides on its lane writes nothing and counts no event (00_scope
R10; 10_queues R275). -/
def Bay.landOn (y : Bay) (u x : Nat) (t : Tile) : Landed :=
  let due := t.dueBy u
  let first : Landed := { t := { t with hist := t.hist.filter (fun w => u ≤ w.1 + 6) }
                          traps := laneCollisions x due }
  let done := (due.filter (fun r => !r.clashes Land.laneKeys due)).foldl (fun w r => w.land y u x r) first
  ({ done with t := { done.t with pend := done.t.pend.filter (fun r => u < r.due) } } : Landed).over due

/-! ## The bay's landings -/

/-- Whether tile `x` of a bay has anything due by tc `u`. -/
def Bay.hasDue (y : Bay) (u x : Nat) : Bool := (y.tile x).pend.any (fun r => r.due ≤ u)

/-- The barrier counters that the fills among some records add to as they land (13_counters R348). -/
def fillCounts (rs : List Pend) : List Nat := rs.flatMap (fun r => r.what.flatMap (fun l => match l with
  | .slotFill _ _ _ bcs => bcs
  | _ => []))

/-- Tile `x` of bay `b` after its landings in tc `u`. -/
def State.landTile (s : State) (b u x : Nat) : State :=
  let y := s.bay b
  if y.hasDue u x then
    let w := y.landOn u x (y.tile x)
    let z : Bay := { y.setTile x w.t with traps := y.traps ++ w.traps }
    let s := s.setBay b ((fillCounts ((y.tile x).dueBy u)).foldl (fun z i => z.countFill x i) z)
    if w.crossed.any y.evIrq then s.notify b 0x145 else s
  else s

/-- The BINDs landing in a bay: tile, record, entry and its new contents. -/
def Bay.bindsDue (y : Bay) (u : Nat) : List (Nat × Pend × Nat × Region) :=
  (List.range 128).flatMap (fun x => ((y.tile x).dueBy u).flatMap (fun r => r.what.filterMap (fun l =>
    match l with
    | .bind e sa ab sz => some (x, r, e, ({ sync := sa, base := ab, size := sz } : Region))
    | _ => none)))

/-- The BINDs of one tc (11_tables R301): equal ones act once, different ones on one entry each raise 0x088. -/
def Bay.landBinds (y : Bay) (bs : List (Nat × Pend × Nat × Region)) : Bay :=
  let clash (e : Nat) (v : Region) : Bool := bs.any (fun q => q.2.2.1 == e && q.2.2.2 != v)
  bs.foldl (fun y q =>
    if clash q.2.2.1 q.2.2.2 then { y with traps := y.traps ++ [q.2.1.trap q.1 0x088 q.2.2.2.sync] }
    else { y with regions := put y.regions q.2.2.1 q.2.2.2 }) y

/-- The ST64s landing in a bay, in ascending order of tile (12_endpoints R326). -/
def Bay.st64sDue (y : Bay) (u : Nat) : List (Nat × Pend × Nat × List Word) :=
  (List.range 128).flatMap (fun x => ((y.tile x).dueBy u).flatMap (fun r => r.what.filterMap (fun l =>
    match l with
    | .st64 rd rec => some (x, r, rd, rec)
    | _ => none)))

/-- One ST64 landing on tile `x` (12_endpoints R325). -/
def State.landSt64 (s : State) (b u : Nat) (q : Nat × Pend × Nat × List Word) : State :=
  let (y, code) := s.submit (s.bay b) q.2.2.2 u q.2.1.addr q.1
  let t := y.tile q.1
  let t := if q.2.2.1 = 0 then t
    else t.setStrm 0 { t.strm 0 with a := put (t.strm 0).a q.2.2.1 (BitVec.ofNat 64 code) }
  s.setBay b (y.setTile q.1 t)

/-- Every write of bay `b` that lands in tc `u`. -/
def State.landBay (s : State) (b u : Nat) : State :=
  let y := s.bay b
  let binds := y.bindsDue u
  let st64s := y.st64sDue u
  let s := (List.range 128).foldl (fun s x => s.landTile b u x) s
  let s := if binds.isEmpty then s else s.setBay b ((s.bay b).landBinds binds)
  st64s.foldl (fun s q => s.landSt64 b u q) s

/-- Whether the timed domain of a bay moves: it runs and is not frozen (R37). -/
def Bay.timed (y : Bay) : Bool := y.phase == .running && y.freeze.isNone

/-- WRITE_LANDING (R33): the writes due in the bay's current tc land; a frozen bay lands none (R37). -/
def execWriteLanding (b : BitVec 3) (s : State) : Host.Outcome State Fault Refusal :=
  let y := s.bay b.toNat
  if y.timed && (List.range 128).any (y.hasDue y.tclk) then .next (s.landBay b.toNat y.tclk)
  else .refused (.notEnabled "WRITE_LANDING")

/-- LANE_VALUE_DROP (01_device R16): a value drops off its lane after 15 tc. -/
def Tile.dropLanes (t : Tile) (u : Nat) : Tile := { t with lanes := t.lanes.filter (fun v => u ≤ v.tc + 15) }

/-- LANE_VALUE_DROP on tile `x` in the bay's current tc. -/
def execLaneValueDrop (b : BitVec 3) (x : BitVec 7) (s : State) : Host.Outcome State Fault Refusal :=
  let y := s.bay b.toNat
  let t := y.tile x.toNat
  if y.timed && t.lanes.any (fun v => v.tc + 15 < y.tclk) then .next (s.setTile b.toNat x.toNat (t.dropLanes y.tclk))
  else .refused (.notEnabled "LANE_VALUE_DROP")

end Sys2Proof.Machine
end

