-- ==== Sys2Proof/Machine/Sequence.lean ====
section
/-! DEFINITION. Sequencing, transfers, rendezvous, safe points, holds, TRAP and SYSC, groups 0x00 and 0x01
(05_control_registers R133 to R147; 02_execution R35 to R51). A tile's RDV, SAFE, CALL and RET are joint words: the word
records itself in `Bay.joints` and the close of the tc (Timetable) resolves all of them together. -/

namespace Sys2Proof.Machine

/-- NOP has no effect in any case (R136). -/
def execNop (h : Head) (o : Ops) (s : State) := scalarWord allStreams true (.nop h o) h s noHazard id

/-- The issuing stream's next word delayed by `n` tc. -/
def State.delayNext (s : State) (n : Nat) : State :=
  match s.strm.next with
  | .word fn off base => s.setStrm { s.strm with next := .word fn off (base + n) }
  | .halted => s

/-- WAIT: the next word issues n tc later, whether WAIT is active or suppressed (R136). -/
def execWait (h : Head) (o : Ops) (s : State) :=
  scalarWord allStreams true (.wait h o) h s noHazard (fun s => s.delayNext (waitCount o))
    (fun s => s.delayNext (waitCount o))

/-- HALT: the stream issues nothing further; a pending transfer has no effect (R51, R134). -/
def execHalt (h : Head) (o : Ops) (s : State) :=
  scalarWord allStreams true (.halt h o) h s noHazard
    (fun s => s.setStrm { s.strm with next := .halted, xfer := none })

/-- BTGT prepares a branch target: an offset in the current function, or a function (R137); on a steward core a byte
address (R162). -/
def execBtgt (h : Head) (o : Ops) (fn : Bool) (s : State) :=
  scalarWord allStreams true (.btgt h o fn) h s
    (fun s => when (fn && s.onSteward) 0x004
      ++ (if fn then s.regCheck o.a (fun v => v.extractLsb' 24 8 != 0#8) else []))
    (fun s =>
      let v := s.uintVal o.a o.c
      let w : Word :=
        if s.onSteward then (v.extractLsb' 0 48).setWidth 64
        else if fn then 0#8 ++ v.extractLsb' 0 24 ++ 0#32
        else 0#8 ++ BitVec.ofNat 24 s.strm.cur.1 ++ v.extractLsb' 0 32
      s.post 1 (s.landB (bReg o.d) w))

/-- BR transfers when active (R138). -/
def execBr (h : Head) (o : Ops) (s : State) :=
  scalarWord allStreams true (.br h o) h s (fun s => transferHazards (s.strm.readB (bReg o.d)) s)
    (fun s => s.transferTo (s.strm.readB (bReg o.d)))

/-- A joint word recorded for the close of the tc. -/
def State.join (s : State) (j : Joint) : State :=
  match s.core with
  | .tile b x k =>
    let y := s.bay b
    s.setBay b { y with joints := y.joints ++ [(x, k, j)] }
  | .steward _ => s

/-- A joint word's state once it has joined: an active word whose own bits are good issues jointly with the tile's other streams
even when it raises a cause of its own (R139). -/
def State.joining (s : State) (i : Instr) (h : Head) (j : Joint) : State :=
  if s.executes allStreams true && guardP h s.strm && (formCauses i).isEmpty then s.join j else s

/-- Whether a write to one of `ts` landed in tc t − 1 or t (R140). -/
def State.lateWrite (s : State) (ts : List Target) : Bool :=
  s.curTile.hist.any (fun w => s.tc ≤ w.1 + 1 && w.1 ≤ s.tc && ts.contains w.2)

/-- The causes of CALL on a tile: a write inside the residency sample (R140), a carve-out full of entered functions
(0x049), a callee whose staging fails (0x087, 11_tables R298). -/
def callHazards (h : Head) (o : Ops) (s : State) : List Hazard :=
  match s.core with
  | .steward _ => []
  | .tile b _ _ =>
    let v := s.strm.readB (bReg o.d)
    let fn := v.extractLsb' 32 24
    when (s.lateWrite (guardTargets h s ++ selTargets o.d s)) 0x046
      ++ (if s.badTarget v false false then []
          else match s.calleeSize b fn with
            | none => [(0x087, s.stageFault b fn.toNat)]
            | some n => when (!s.fitsAll b fn n) 0x049)

/-- CALL (R139, R140, R162): a joint transfer of the tile's streams; on a steward core a transfer that writes b7. -/
def execCall (h : Head) (o : Ops) (s : State) :=
  scalarWord allStreams true (.call h o) h
    (s.joining (.call h o) h (.call ((s.strm.readB (bReg o.d)).extractLsb' 32 24) 0))
    (fun s => when s.inDelaySlot 0x041 ++ when (s.badTarget (s.strm.readB (bReg o.d)) false false) 0x047
      ++ callHazards h o s)
    (fun s =>
      if s.onSteward then
        (s.post 1 (s.landB 7 (BitVec.ofNat 64 (s.keptFrom s.core 0 s.strm.cur.2 s.tc)))).transferTo (s.strm.readB (bReg o.d))
      else s)
    (fun s => s.lateGuard (fun s => when (s.lateWrite (guardTargets h s)) 0x046))

/-- The words of stream `k`'s body of tile `x` in function `fn`: those staged, else those of the code object (02_execution
R51). -/
def State.bodyLength (s : State) (b x : Nat) (fn : BitVec 24) (k : Nat) : Option Nat :=
  match (s.bay b).fnOf x fn with
  | some f => ((f.bodies[k]?).getD none).map List.length
  | none => (s.firstWord b fn.toNat k).map (fun w => s.bodyEnd b w - w)

/-- A bad target of RET: an offset not below the length of the stream's body, which is absent or not (R135, R139). -/
def State.badReturn (s : State) (v : Word) : Bool :=
  match s.core with
  | .steward _ => s.badTarget v false true
  | .tile b x k => s.badTarget v false false || (match s.bodyLength b x (v.extractLsb' 32 24) k with
    | some n => n ≤ (v.extractLsb' 0 32).toNat
    | none => true)

/-- RET (R139, R162). -/
def execRet (h : Head) (o : Ops) (s : State) :=
  let v := s.strm.readB (bReg o.d)
  scalarWord allStreams true (.ret h o) h
    (s.joining (.ret h o) h (.ret (v.extractLsb' 32 24) (v.extractLsb' 0 32).toNat))
    (fun s => when s.inDelaySlot 0x041 ++ when (s.badReturn (s.strm.readB (bReg o.d))) 0x047)
    (fun s => if s.onSteward then s.transferTo (s.strm.readB (bReg o.d)) else s)

/-- RDV joins streams of the tile or of the bay (R141, R50). -/
def execRdv (h : Head) (o : Ops) (bay step : Bool) (s : State) :=
  scalarWord allStreams true (.rdv h o bay step) h s notOnSteward (fun s => s.join (.rdv bay step))

/-- SAFE marks a bay safe point (R142, R41, R42). -/
def execSafe (h : Head) (o : Ops) (s : State) :=
  scalarWord allStreams true (.safe h o) h s
    (fun s => notOnSteward s ++ when (!s.onSteward && s.strmNo != 0) 0x00E) (fun s => s.join .safe)

/-- The tokens a HOLD.tok mask names, as targets. -/
def maskTargets (m : Word) : List Target := ((List.range 64).filter (fun k => m.getLsbD k)).map Target.tok

/-- HOLD.tok: nothing remains to do at issue once its condition has held (R143, R144). -/
def execHoldTok (h : Head) (o : Ops) (s : State) :=
  scalarWord allStreams true (.holdTok h o) h s
    (fun s => notOnSteward s ++ when (s.horizonHit (guardTargets h s ++ selTargets o.d s
      ++ maskTargets (s.uintVal o.d o.c))) 0x046) id (fun s => s.lateGuard (guardLate h))

/-- The count a HOLD.sem compares: uint of the operand. -/
def State.holdCount (s : State) (o : Ops) : Word := s.intVal o.a o.c

/-- HOLD.sem: the semaphore is not changed (R143, R345 to R347). -/
def execHoldSem (h : Head) (o : Ops) (s : State) :=
  scalarWord allStreams true (.holdSem h o) h s
    (fun s =>
      let n := (immVal o.d).toNat
      let m := nth s.curTile.sems n {}
      notOnSteward s ++ when (s.horizonHit (guardTargets h s ++ selTargets o.a s ++ [.sem n])) 0x046
        ++ when m.ovf 0x056 ++ when (m.count.toNat < (s.holdCount o).toNat) 0x057) id (fun s => s.lateGuard (guardLate h))

/-- HOLD.bc (R143; 13_counters R348). -/
def execHoldBc (h : Head) (o : Ops) (s : State) :=
  scalarWord allStreams true (.holdBc h o) h s
    (fun s => notOnSteward s ++ when (s.horizonHit (guardTargets h s ++ selTargets o.a s)) 0x046) id (fun s => s.lateGuard (guardLate h))

/-- HOLD.step (R143; 02_execution R26). -/
def execHoldStep (h : Head) (o : Ops) (s : State) :=
  scalarWord allStreams true (.holdStep h o) h s
    (fun s => notOnSteward s ++ when (s.horizonHit (guardTargets h s)) 0x046) id (fun s => s.lateGuard (guardLate h))

/-- Whether an ST64 carrying `id` was accepted in the current step by the start of tc t − 6 (12_endpoints R328): like the
samples of R36, that start sees what landed in earlier tc. -/
def Bay.acceptedBy (y : Bay) (id t : Nat) : Bool :=
  y.ep.colls.any (fun c => c.id.toNat == id && c.opened && c.landed + 6 < t)

/-- HOLD.col (R143; 12_endpoints R328): an id above 1,023 is cause 0x004, a collective not accepted in time 0x100. -/
def execHoldCol (h : Head) (o : Ops) (s : State) :=
  scalarWord allStreams true (.holdCol h o) h s
    (fun s =>
      let id := s.intVal o.d o.c
      notOnSteward s ++ s.regCheck o.d (fun v => 1023 < v.toNat)
        ++ when (s.horizonHit (guardTargets h s ++ selTargets o.d s)) 0x046
        ++ when (!s.onSteward && !s.curBay.acceptedBy id.toNat s.tc) 0x100) id (fun s => s.lateGuard (guardLate h))

/-- TRAP raises 0x030 + n (R145; on a steward core a synchronous trap, R162). -/
def execTrap (h : Head) (o : Ops) (s : State) :=
  scalarWord allStreams true (.trap h o) h s
    (fun _ => [(0x030 + BitVec.ofNat 9 ((immVal o.d).toNat % 16), 0)]) id

/-- A SYSC record (R146). -/
def syscRecord (a : Word) (n strm lidx tclk : Nat) (milestone : Word) : BitVec 256 :=
  BitVec.ofNat 256 (a.toNat + n * 2 ^ 64 + strm * 2 ^ 80 + lidx * 2 ^ 88 + tclk % 2 ^ 64 * 2 ^ 128
    + milestone.toNat * 2 ^ 192)

/-- SYSC appends a record to the bay's steward request queue, which makes cause 0x146 pending at its steward while it
is there; a full queue raises 0x140 (R146; 15_traps R383). -/
def execSysc (h : Head) (o : Ops) (s : State) :=
  scalarWord allStreams true (.sysc h o) h s
    (fun s => notOnSteward s ++ when (256 ≤ s.curBay.sysq.length) 0x140)
    (fun s => match s.core with
      | .tile b x k =>
        let y := s.bay b
        let r := syscRecord (s.strm.readA (aReg o.a)) (immVal o.d).toNat k (y.tile x).lidx.toNat y.tclk (s.crRead b x k 0 0 0x0C)
        s.setBay b { y with sysq := y.sysq ++ [r], sysFresh := freshen s.wc y.sysFresh }
      | .steward _ => s)

end Sys2Proof.Machine
end

