-- ==== Sys2Proof/Machine/Sync.lean ====
section
/-! DEFINITION. Semaphores and mutexes, group 0x07 (13_counters R344 to R347). -/

namespace Sys2Proof.Machine

/-- The count c := uint(cnt[31:0]); a literal is zero-extended (R344). -/
def State.semCount (s : State) (o : Ops) : BitVec 32 := (s.uintVal o.a o.c).setWidth 32

/-- The index of a semaphore or mutex. -/
def semIdx (o : Ops) : Nat := (immVal o.d).toNat

/-- Semaphore `n` of the issuing tile. -/
def State.sem (s : State) (n : Nat) : Sem := nth s.curTile.sems n {}

/-- Mutex `n` of the issuing tile. -/
def State.mtx (s : State) (n : Nat) : Mtx := nth s.curTile.mtxs n {}

/-- Whether another active word of this tc, of an earlier stream, is a SEMW of semaphore `n` or an MTXL of mutex `n`, also one
that trapped (R345). -/
def State.waitClash (s : State) (n : Nat) (sem : Bool) : Bool :=
  match s.core with
  | .steward _ => false
  | .tile b x k => (s.bay b).issued.any (fun p => p.1 == x && p.2 != k
      && match (s.fetchAt (.tile b x p.2) (BitVec.ofNat 24 ((s.tile b x).strm p.2).cur.1) ((s.tile b x).strm p.2).cur.2).map decode with
        | some (.ok (.semw _ o)) => sem && semIdx o == n
        | some (.ok (.mtxl _ o)) => !sem && semIdx o == n
        | _ => false)

/-- SEMW: a hold until the count reaches c; then count := count − c at issue + 1 (R345, R346, R347). -/
def execSemw (h : Head) (o : Ops) (s : State) :=
  scalarWord allStreams true (.semw h o) h s
    (fun s =>
      let n := semIdx o
      let c := s.semCount o
      notOnSteward s
        ++ when (s.horizonHit (guardTargets h s ++ selTargets o.a s ++ [.sem n]) || s.waitClash n true) 0x046
        ++ when (s.sem n).ovf 0x056 ++ when ((s.sem n).count.toNat < c.toNat) 0x057)
    (fun s => s.post 1 [.semSub (semIdx o) (s.semCount o)]) (fun s => s.lateGuard (guardLate h))

/-- SEMS: count := count + c at issue + 1, or an arm on an outstanding token (R347). -/
def execSems (h : Head) (o : Ops) (tok : Bool) (kt : BitVec 6) (s : State) :=
  scalarWord allStreams true (.sems h o tok kt) h s
    (fun s => notOnSteward s ++ when (s.sem (semIdx o)).ovf 0x056
      ++ when (tok && s.tokBusy kt.toNat && (nth s.curTile.toks kt.toNat {}).arm.isSome) 0x059)
    (fun s =>
      if tok && s.tokBusy kt.toNat then
        let t := s.curTile
        let k := { nth t.toks kt.toNat {} with arm := some (.sem (semIdx o) (s.semCount o)) }
        s.setCurTile { t with toks := put t.toks kt.toNat k }
      else s.post 1 [.semAdd (semIdx o) (s.semCount o)])

/-- MTXL: a hold until the mutex is free; then it is held by this stream from issue + 1 (R345, R346). -/
def execMtxl (h : Head) (o : Ops) (s : State) :=
  scalarWord allStreams true (.mtxl h o) h s
    (fun s =>
      let n := semIdx o
      notOnSteward s ++ when (s.horizonHit (guardTargets h s ++ [.mtx n]) || s.waitClash n false) 0x046
        ++ when (s.mtx n).held 0x057)
    (fun s => s.post 1 [.mtxTake (semIdx o) (BitVec.ofNat 4 s.strmNo)]) (fun s => s.lateGuard (guardLate h))

/-- MTXU: a release at issue + 1, or armed on an outstanding token (R347). -/
def execMtxu (h : Head) (o : Ops) (tok : Bool) (kt : BitVec 6) (s : State) :=
  scalarWord allStreams true (.mtxu h o tok kt) h s
    (fun s =>
      let m := s.mtx (semIdx o)
      notOnSteward s ++ when (!m.held || m.owner != BitVec.ofNat 4 s.strmNo || m.armed) 0x058
        ++ when (tok && s.tokBusy kt.toNat && (nth s.curTile.toks kt.toNat {}).arm.isSome) 0x059)
    (fun s =>
      if tok && s.tokBusy kt.toNat then
        let t := s.curTile
        let n := semIdx o
        let k := { nth t.toks kt.toNat {} with arm := some (.mtx n) }
        let m := { nth t.mtxs n {} with armed := true, tok := kt }
        s.setCurTile { t with toks := put t.toks kt.toNat k, mtxs := put t.mtxs n m }
      else s.post 1 [.mtxFree (semIdx o)])

end Sys2Proof.Machine
end

