-- ==== Sys2Proof/Machine/Exchange.lean ====
section
/-! DEFINITION. The cluster exchange, MAJ 0x78 (10_queues R289, R290). Messages arrive, and full channels trap, in
Timetable. -/

namespace Sys2Proof.Machine

/-- The tc a message takes between two tiles of a cluster (R289). -/
def xTravel (src dst : Nat) : Nat := if dst = src ∨ dst = (src + 1) % 16 ∨ src = (dst + 1) % 16 then 8 else 12

/-- The XSND that sent a message to tile `x`: its tc, its tile and its code address. -/
def XMsg.sentBy (m : XMsg) (x : Nat) : Nat × Nat × Word := (m.tc - xTravel (m.srcTile % 16) (x % 16), m.srcTile, m.addr)

/-- A message sent to the tiles of a cluster that a mask names (R290). -/
def State.send (s : State) (mask : Word) (v : Row) : State :=
  match s.core with
  | .steward _ => s
  | .tile b x _ =>
    ((List.range 16).filter (fun j => mask.getLsbD j)).foldl (fun s j =>
      let d := x / 16 * 16 + j
      let t := s.tile b d
      let m : XMsg := { tc := (s.bay b).tclk + xTravel (x % 16) j, src := x % 16, srcTile := x, addr := s.addr, v := v }
      s.setTile b d { t with inbox := t.inbox ++ [m] }) s

/-- XSND (R290). -/
def execXsnd (h : Head) (o : Ops) (s : State) :=
  scalarWord [8] false (.xsnd h o) h s (fun s => causeIn (s.raw o.d))
    (fun s => match s.raw o.d with
      | .error _ => s
      | .ok (r, ev) => s.atIssue ev (fun s => s.send (s.uintVal o.a o.c) r))

/-- A channel of the issuing tile. -/
def State.chan (s : State) (n : Nat) : List Row := nth s.curTile.chans n []

/-- XRCV (R290). -/
def execXrcv (h : Head) (o : Ops) (s : State) :=
  scalarWord [8] false (.xrcv h o) h s
    (fun s =>
      let n := (s.intVal o.a o.c).toNat
      s.regCheck o.a (fun v => 15 < v.toNat) ++ when (n ≤ 15 && (s.chan n).isEmpty) 0x054)
    (fun s =>
      let n := (s.intVal o.a o.c).toNat
      match s.chan n with
      | [] => s
      | v :: vs =>
        let t := s.curTile
        (s.setCurTile { t with chans := put t.chans n vs }).post 1
          (match o.d with
            | .v k => [.rowRaw (s.strm.physV k) v]
            | .lane aw k => [.lane aw k 13 v]
            | _ => []))

end Sys2Proof.Machine
end

