-- ==== Sys2Proof/Machine/TileSteps.lean ====
section
/-! DEFINITION. Steps of a tile outside the timetable: gateway commands starting, their fills and contributions arriving,
tokens completing and firing their arms, decode jobs, exchange arrivals, and code prefetch (08_memories R244
to R249; 09_ordering R262 to R265; 10_queues R276 to R289; 13_counters R344, R350). -/

namespace Sys2Proof.Machine

/-! ## Gateway commands -/

/-- The command outstanding under token `k`. -/
def Tile.cmd (t : Tile) (k : Nat) : Option Cmd := t.cmds.find? (fun c => c.k == k)

/-- The tile with its command `c.k` replaced. -/
def Tile.setCmd (t : Tile) (c : Cmd) : Tile := { t with cmds := t.cmds.map (fun (d : Cmd) => if d.k = c.k then c else d) }

/-- The command token `k` of tile `x` of bay `b` holds, as a run. -/
def State.runOf (s : State) (b x k : Nat) : Option Run :=
  ((s.tile b x).cmd k).map (fun c => { s := s, b := b, x := x, c := c })

/-- The state after a run, its command put back. -/
def Run.close (r : Run) : State := r.s.setTile r.b r.x ((r.s.tile r.b r.x).setCmd r.c)

/-- ACQ and FENCE also wait for every command the tile issued before them (09_ordering R264, R265). -/
def CmdKind.waitsEarlier : CmdKind → Bool
  | .acq _ _ _ => true
  | .fence _ => true
  | _ => false

/-- Whether a command may start: its consumed tokens have completed. -/
def Tile.canStart (t : Tile) (c : Cmd) : Bool :=
  !c.started && c.waits.isEmpty && (!c.what.waitsEarlier || (t.cmds.head?.map (·.k)) == some c.k)

/-- What a command does when it starts; fills and contributions follow one by one. -/
def Run.perform (r : Run) : Run :=
  match r.c.what with
  | .fill _ _ _ _ => r
  | .store src ga f => r.storeAll src f ga
  | .copy gd gs nb => r.copyAll gd.toNat gs.toNat nb
  | .prefetch ga nb lv => { r with s := r.s.prefetch r.b r.x ga.toNat nb lv }
  | .invalidate ga nb => { r with s := r.s.invalidate r.b r.x ga.toNat nb }
  | .writeBack ga nb => { r with s := r.s.writeBackRange r.b r.x ga.toNat nb }
  | .atomic loc ga n op fmt ret => r.atomRun loc ga n op fmt ret
  | .grid ad aw draw => r.gridRun ad aw draw
  | .acq scope _ regions => r.acquire scope.toNat regions
  | .rel scope sa val regions => r.release scope.toNat sa val regions
  | .fence scope => r.fenceRun scope.toNat

/-- A command marked as started. -/
def Run.start (r : Run) : Run := { r with c := { r.c with started := true } }

/-- Whether a command had nothing to do: n or nb is 0 (08_memories R244). -/
def CmdKind.nothing : CmdKind → Bool
  | .fill _ ga _ _ => ga.isEmpty
  | .store _ ga _ => ga.isEmpty
  | .copy _ _ nb => nb == 0
  | .prefetch _ nb _ => nb == 0
  | .invalidate _ nb => nb == 0
  | .writeBack _ nb => nb == 0
  | _ => false

/-- Whether a command translates addresses: neither a FENCE nor one with nothing to do. -/
def CmdKind.translates : CmdKind → Bool
  | .fence _ => false
  | k => !k.nothing

/-- The translation-cache misses and the walks of an agent counted: how many follow from structures the manual leaves to the
implementation, so the counts grow by free values (13_counters Table 7; log entry 18). -/
def State.countWalks (s : State) (b : Nat) : State :=
  let (i, s) := s.draw
  let (j, s) := s.draw
  s.setBay b (((s.bay b).count 36 (i % 2 ^ 32)).count 37 (j % 2 ^ 32))

/-- GATEWAY_COMMAND_START (08_memories R244): a command whose consumed tokens have completed starts. -/
def execGatewayCommandStart (b : BitVec 3) (x : BitVec 7) (k : BitVec 6) (s : State) : Host.Outcome State Fault Refusal :=
  match s.runOf b.toNat x.toNat k.toNat with
  | none => .refused (.notEnabled "GATEWAY_COMMAND_START")
  | some r =>
    if (s.tile b.toNat x.toNat).canStart r.c then
      let s := r.start.perform.close
      .next (if r.c.what.translates then s.countWalks b.toNat else s)
    else .refused (.notEnabled "GATEWAY_COMMAND_START")

/-- The image a fill of a command is due to bring. -/
def Cmd.fillDue (c : Cmd) (j : Nat) : Option (Local × Word × BitVec 16 × BitVec 5) :=
  match c.what with
  | .fill dst ga seq f => if c.started && !c.done.contains j then (ga[j]?).map (fun va => (dst, va, seq, f)) else none
  | _ => none

/-- GATEWAY_FILL (08_memories R231, R247, R248): image `j` of a GLD or GGTH reaches its destination in one wc. -/
def execGatewayFill (b : BitVec 3) (x : BitVec 7) (k : BitVec 6) (j : BitVec 7) (s : State) :
    Host.Outcome State Fault Refusal :=
  match s.runOf b.toNat x.toNat k.toNat with
  | none => .refused (.notEnabled "GATEWAY_FILL")
  | some r =>
    match r.c.fillDue j.toNat with
    | none => .refused (.notEnabled "GATEWAY_FILL")
    | some (dst, va, seq, f) =>
      let r := { r with c := { r.c with done := r.c.done ++ [j.toNat] } }
      .next (r.fillImage dst va.toNat j.toNat seq f).close

/-- CONTRIBUTION_ARRIVAL (12_endpoints R321): the bytes of image or line `j` of a command reach the endpoint. -/
def execContributionArrival (b : BitVec 3) (x : BitVec 7) (k : BitVec 6) (j : Nat) (s : State) :
    Host.Outcome State Fault Refusal :=
  match s.runOf b.toNat x.toNat k.toNat with
  | none => .refused (.notEnabled "CONTRIBUTION_ARRIVAL")
  | some r =>
    if r.c.contribs.any (fun v => v.index == j) then .next (r.arrive j).close
    else .refused (.notEnabled "CONTRIBUTION_ARRIVAL")

/-! ## Token completion (10_queues R284, R285) -/

/-- Whether a write in flight is a fill of one of the `len` slots of a group from slot `n` on, put off behind a BSCT or BATM. -/
def Land.fills (g n len : Nat) : Land → Bool
  | .slotFill h m _ _ => h == g && n ≤ m && m < n + len
  | _ => false

/-- Whether every fill of a command of a tile has landed (08_memories R231, R244). -/
def Cmd.landed (c : Cmd) (t : Tile) : Bool :=
  match c.what with
  | .fill (.slots g n) ga _ _ => !t.pend.any (fun p => p.what.any (Land.fills g n ga.length))
  | .atomic (.slots g n) _ _ _ _ true => !t.pend.any (fun p => p.what.any (Land.fills g n 1))
  | _ => true

/-- Whether every effect of a command has occurred, or is on its way to a slot. -/
def Cmd.finished (c : Cmd) : Bool :=
  c.started && c.contribs.isEmpty && (match c.what with
    | .fill _ ga _ _ => c.done.length == ga.length
    | _ => true)

/-- An arm fires (13_counters R344, R347): an increment that saturates sets ovf; a release frees the mutex. -/
def Tile.fire (t : Tile) : Arm → Tile
  | .sem n c =>
    let m := nth t.sems n {}
    let v := m.count.toNat + c.toNat
    let m := if 2 ^ 32 ≤ v then { m with count := BitVec.allOnes 32, ovf := true }
      else { m with count := BitVec.ofNat 32 v }
    { t with sems := put t.sems n m }
  | .mtx n => { t with mtxs := put t.mtxs n { nth t.mtxs n {} with held := false, armed := false } }

/-- The tile once token `k` has completed: its state, its arm, and the waits it ends. -/
def Tile.complete (t : Tile) (k : Nat) (empty flt : Bool) : Tile :=
  let tok := nth t.toks k {}
  let t := match tok.arm with
    | some a => t.fire a
    | none => t
  let drop (ws : List Nat) : List Nat := ws.filter (fun w => w != k)
  { t with
    toks := put t.toks k { out := false, empty := empty, flt := flt, arm := none }
    cmds := (t.cmds.filter (fun (c : Cmd) => c.k != k)).map (fun (c : Cmd) => { c with waits := drop c.waits })
    oq := { t.oq with jobs := t.oq.jobs.map (fun (j : SxJob) => { j with waits := drop j.waits }) } }

/-- Whether a command is that of an ordering word of CT, which is no gateway command (09_ordering R256). -/
def CmdKind.orders : CmdKind → Bool
  | .acq _ _ _ => true
  | .rel _ _ _ _ => true
  | .fence _ => true
  | _ => false

/-- TOKEN_COMPLETION (R285; 13_counters R350, R351): the events of the command are added, a crossing that traps queues
record 0x0D0 + k, and the token completes. -/
def execTokenCompletion (b : BitVec 3) (x : BitVec 7) (k : BitVec 6) (s : State) : Host.Outcome State Fault Refusal :=
  let b := b.toNat
  let x := x.toNat
  match s.runOf b x k.toNat with
  | none => .refused (.notEnabled "TOKEN_COMPLETION")
  | some r =>
    if r.c.finished && r.c.landed (s.tile b x) && (nth (s.tile b x).toks k.toNat {}).out then
      let y := s.bay b
      let crossed := (((y.tile x).addEvents y.countsInexact r.c.evs).2).any y.evTrap
      let s := s.asyncEvents b x r.c.evs (fun s c => (({ r with s := s } : Run).fault c false 0 0 noDest).s)
      let y := if r.c.what.orders then s.bay b else (s.bay b).count 34
      .next (s.setBay b (y.setTile x ((y.tile x).complete k.toNat r.c.what.nothing (r.c.flt || crossed))))
    else .refused (.notEnabled "TOKEN_COMPLETION")

/-! ## Decode jobs (10_queues R276 to R281) -/

/-- The entries of a job's source, now: a slot is read raw through the fill port, and a poisoned one gives one marked
entry with value base (R281, R282). -/
def Tile.sxTake (t : Tile) : SxSource → List (BitVec 33)
  | .ready es => es
  | .slot g n min f base cnt =>
    let v := t.slot g n
    if v.poison || v.bad then [1#1 ++ base] else sxEntries min (sxElems f v.data) base cnt

/-- The first job that has entries still to push, with the jobs before and after it. -/
def splitJobs : List SxJob → List SxJob × Option SxJob × List SxJob
  | [] => ([], none, [])
  | j :: js =>
    if j.finished then let (a, k, c) := splitJobs js; (j :: a, k, c) else ([], some j, js)

/-- The entries a job still holds. -/
def SxJob.left (j : SxJob) : List (BitVec 33) :=
  match j.src with
  | .ready es => es
  | .slot _ _ _ _ _ _ => []

/-- A job that starts: its entries are fixed, and one without entries finishes (R278, R279). -/
def SxJob.begin (j : SxJob) (t : Tile) : SxJob :=
  let es := t.sxTake j.src
  { j with src := .ready es, started := true, finished := es.isEmpty }

/-- The queue after its front job pushes what it may; `now` is the tc or wc of the push. -/
def OffsetQueue.push (q : OffsetQueue) (now : Nat) : OffsetQueue :=
  match splitJobs q.jobs with
  | (a, some j, c) =>
    let n := min q.rate.toNat (1024 - q.entries.length)
    let rest := j.left.drop n
    { q with
      entries := q.entries ++ j.left.take n
      jobs := a ++ { j with src := .ready rest, finished := rest.isEmpty } :: c
      freeTc := now + 1 }
  | (_, none, _) => q

/-- The tile with its front job started. -/
def Tile.beginJob (t : Tile) : Tile :=
  match splitJobs t.oq.jobs with
  | (a, some j, c) => { t with oq := { t.oq with jobs := a ++ j.begin t :: c } }
  | (_, none, _) => t

/-- Whether the front job may start in elastic mode (R279). -/
def State.jobReady (s : State) (b x : Nat) : Bool :=
  let q := (s.tile b x).oq
  match splitJobs q.jobs with
  | (_, some j, _) => !j.strict && !j.started && j.waits.isEmpty && j.w0 + 2 ≤ s.wc && q.freeTc ≤ s.wc
  | (_, none, _) => false

/-- SX_JOB_START (R279). -/
def execSxJobStart (b : BitVec 3) (x : BitVec 7) (s : State) : Host.Outcome State Fault Refusal :=
  if s.jobReady b.toNat x.toNat then
    .next (s.setTile b.toNat x.toNat (s.tile b.toNat x.toNat).beginJob)
  else .refused (.notEnabled "SX_JOB_START")

/-- Whether the front job may push in elastic mode: it has started, the queue has room, and it has not pushed in this
wc. -/
def State.pushReady (s : State) (b x : Nat) : Bool :=
  let q := (s.tile b x).oq
  match splitJobs q.jobs with
  | (_, some j, _) => !j.strict && j.started && q.freeTc ≤ s.wc && q.entries.length < 1024
  | (_, none, _) => false

/-- OFFSET_PUSH (R279). -/
def execOffsetPush (b : BitVec 3) (x : BitVec 7) (s : State) : Host.Outcome State Fault Refusal :=
  let t := s.tile b.toNat x.toNat
  if s.pushReady b.toNat x.toNat then .next (s.setTile b.toNat x.toNat { t with oq := t.oq.push s.wc })
  else .refused (.notEnabled "OFFSET_PUSH")

/-- The strict decoder's work in tc `u`, after the tc's pops (R278): a due job starts, and the front job pushes. -/
def Tile.strictPush (t : Tile) (u : Nat) : Tile :=
  match splitJobs t.oq.jobs with
  | (_, some j, _) =>
    if j.strict then
      let t := if !j.started && j.t0 + 2 ≤ u && t.oq.freeTc ≤ u then t.beginJob else t
      match splitJobs t.oq.jobs with
      | (_, some j, _) => if j.started then { t with oq := t.oq.push u } else t
      | (_, none, _) => t
    else t
  | (_, none, _) => t

/-! ## Exchange arrivals (10_queues R289) -/

/-- The tile after the messages of tc `u` have reached their channels; those of the last five tc, in which one XSND reaches all its
tiles, are remembered. -/
def Tile.receive (t : Tile) (u : Nat) : Tile :=
  let now := t.inbox.filter (fun m => m.tc ≤ u)
  { t with
    chans := now.foldl (fun c m => put c m.src (nth c m.src [] ++ [m.v])) t.chans
    inbox := t.inbox.filter (fun m => u < m.tc)
    arrived := t.arrived.filter (fun m => u ≤ m.tc + 4) ++ now }

/-- EXCHANGE_ARRIVAL: the messages due on tile `x` in the bay's current tc. -/
def execExchangeArrival (b : BitVec 3) (x : BitVec 7) (s : State) : Host.Outcome State Fault Refusal :=
  let y := s.bay b.toNat
  let t := y.tile x.toNat
  if y.timed && t.inbox.any (fun m => m.tc ≤ y.tclk) then .next (s.setTile b.toNat x.toNat (t.receive y.tclk))
  else .refused (.notEnabled "EXCHANGE_ARRIVAL")

/-- The messages that arrived last in a channel that holds more than four values after the pops of its tc. -/
def Tile.overfull (t : Tile) : List XMsg :=
  t.arrived.filter (fun m => 4 < (nth t.chans m.src []).length && t.arrived.all (fun q => q.src != m.src || q.tc ≤ m.tc))

/-- Cause 0x055 against each of them. -/
def Tile.fullTraps (t : Tile) : List TrapRec :=
  t.overfull.map (fun m => { cause := 0x055, tile := m.srcTile, strm := 8, addr := m.addr, ea := 0 })

/-! ## Code prefetch (10_queues R288) -/

/-- Whether a CALL of the bay waits, or will wait, for `fn` to be resident (05_control_registers R140). -/
def Bay.awaits (y : Bay) (fn : BitVec 24) : Bool := y.entering.any (fun e => e.fn == fn)

/-- A cluster with `fn` at the head of its prefetch queue, which holds 16 requests; a full queue loses its last, where R288 does
not say which. DESIGN CHOICE (log entry 80). -/
def Cluster.urge (c : Cluster) (fn : BitVec 24) : Cluster :=
  { c with prefetch := (fn :: c.prefetch.filter (fun g => g != fn)).take 16 }

/-- Whether cluster `c` lacks a callee that a CALL waits for and that can be staged, and holds no request for it. -/
def Cluster.misses (c : Cluster) (e : Enter) : Bool :=
  e.fault.isNone && !c.code.any (fun f => f.fn == e.fn) && !c.prefetch.contains e.fn

/-- Cluster `cl` of a bay with a callee that a full queue has lost requested again once there is room (R288: the bay stays frozen until
it is resident; log entry 80). -/
def Bay.reask (y : Bay) (cl : Nat) : Bay :=
  let c := y.cluster cl
  match y.entering.find? c.misses with
  | some e => if c.prefetch.length < 16 then y.setCluster cl (c.urge e.fn) else y
  | none => y

/-- The bay with what keeps `fn` from being staged noted beside the CALLs that wait for it (11_tables R298): a staging read that
fails, or functions entered since that fill the carve-out (05_control_registers R140). -/
def State.cannotStage (s : State) (b : Nat) (fn : BitVec 24) : Bay :=
  let y := s.bay b
  let why : Cause × Word := if (s.stageFn b fn.toNat).isNone then (0x087, s.stageFault b fn.toNat) else (0x049, 0)
  { y with entering := y.entering.map (fun e => if e.fn = fn then { e with fault := some why } else e) }

/-- The outcome of the staging of `fn` into cluster `cl`: a callee that a CALL waits for counts as entered from then on, so that
nothing staged after it evicts it (R140); one that cannot be staged ends that wait, and any other is dropped (R298). -/
def State.stageRequest (s : State) (b cl : Nat) (fn : BitVec 24) : State :=
  match s.stage b cl fn with
  | some s =>
    let y := s.bay b
    if y.awaits fn then s.setBay b (y.setCluster cl ((y.cluster cl).enterFn fn)) else s
  | none => s.setBay b (s.cannotStage b fn)

/-- PREFETCH_STAGING: the oldest request of cluster `cl` of a running bay is staged, or dropped when its function is resident,
cannot be read or does not fit (R288; 11_tables R298). -/
def execPrefetchStaging (b cl : BitVec 3) (s : State) : Host.Outcome State Fault Refusal :=
  let y := s.bay b.toNat
  let c := y.cluster cl.toNat
  match c.prefetch with
  | [] => .refused (.notEnabled "PREFETCH_STAGING")
  | fn :: rest =>
    if y.phase ≠ .running then .refused (.notEnabled "PREFETCH_STAGING")
    else
      let s := (s.setBay b.toNat (y.setCluster cl.toNat { c with prefetch := rest })).stageRequest b.toNat cl.toNat fn
      let s := s.setBay b.toNat ((s.bay b.toNat).reask cl.toNat)
      .next (if c.code.any (fun f => f.fn == fn) then s else s.countWalks b.toNat)

end Sys2Proof.Machine
end

