-- ==== Sys2Proof/Machine/Sampling.lean ====
section
/-! DEFINITION. Protected cycles: which words are holds or elastic pops, what their samples at the freeze horizon saw, when a
condition holds or can no longer hold, and WAITA's watcher (02_execution R35 to R38; 05_control_registers R140, R144;
13_counters R346; 10_queues R280; 12_endpoints R328; 09_ordering R271). Every protected cycle has its own view of the bay, taken at
the start of the tc six before it; the words that issue in it are looked up in that view once they are known (log entry 19). -/

namespace Sys2Proof.Machine

/-! ## Conditions -/

/-- The condition of a word whose issue tc is a protected cycle, with its operands read in this state; none for any other word, for
one whose guard suppresses it, for one whose own bits trap and for one that its stream does not execute (03_encoding R72).
The state's `core` is the word's stream. A pop that its guard suppresses in elastic mode has the condition of a pop of
nothing: it found the queue in that mode (05_control_registers R144). -/
def State.condOf (s : State) (i : Instr) : Option Cond :=
  let pops (ks : List Nat) (on : Bool) (n : Nat) : Option Cond :=
    if !s.executes ks false || s.curTile.oq.strict || !(formCauses i).isEmpty then none
    else some (.pop (if on then n else 0))
  let active (h : Head) (c : Cond) : Option Cond :=
    if guardP h s.strm && (formCauses i).isEmpty then some c else none
  match i with
  | .holdTok h o => active h (.tok (s.uintVal o.d o.c))
  | .holdSem h o => active h (.sem (BitVec.ofNat 4 (immVal o.d).toNat) (s.holdCount o))
  | .semw h o => active h (.semw (BitVec.ofNat 4 (semIdx o)) (s.semCount o))
  | .holdBc h o => active h (.bc (BitVec.ofNat 4 (immVal o.d).toNat) (s.holdCount o))
  | .holdStep h _ => active h .step
  | .holdCol h o => active h (.col (s.intVal o.d o.c))
  | .mtxl h o => active h (.mtx (BitVec.ofNat 3 (semIdx o)))
  | .waita h o cond => if !s.executes [0] false then none else active h (.watch (s.regOf o.d) (s.intVal o.a o.c) (s.waitMask o) (cond.setWidth 4))
  | .bgth h _ _ _ => pops [1] (guardP h s.strm) 1
  | .mmas h _ _ => pops [2] (guardQ h s.strm != 0) 32
  | .ggth h o _ _ => pops [7] (guardP h s.strm) (szCount (s.regOf o.b))
  | _ => none

/-- The performance counter of the frozen wc of a condition (13_counters Table 7). -/
def Cond.counter : Cond → Nat
  | .tok _ => 21
  | .sem _ _ => 22
  | .semw _ _ => 22
  | .bc _ _ => 23
  | .step => 24
  | .col _ => 25
  | .mtx _ => 26
  | .pop _ => 27
  | .resident _ => 28
  | .watch _ _ _ _ => 29

/-- Whether an XEND has landed on a tile since tc `tc`, or lands by tc `u` (10_queues R283). -/
def Tile.ended (t : Tile) (tc u : Nat) : Bool :=
  t.hist.any (fun w => tc ≤ w.1 && w.2 == .xend) || t.pend.any (fun r => r.due ≤ u && r.what.contains .xend)

/-- The entries that a view shows and no pop has taken since; none after an XEND, since what was decoded before it is gone
(10_queues R280, R283). -/
def View.left (v : View) (t : Tile) (x u : Nat) : Nat :=
  let q := (v.tile x).oq
  if t.ended v.tc u then 0 else q.entries.length - (t.oq.taken - q.taken)

/-- The observation that has ended the wait of a WAITA of protected cycle `u` with condition `c`: whether its read faulted. -/
def Tile.observed (t : Tile) (u : Nat) (c : Cond) : Option Bool :=
  match t.watch with
  | some (u', c', f) => if u' = u ∧ c' = c then some f else none
  | none => none

/-- Whether a condition of tile `x` at protected cycle `u` holds in what a sample saw (Table 3). A step's arrival and what a
collective was accepted as are those of the word's own tc; a collective that was not accepted in time holds nothing, the word
traps (12_endpoints R328). -/
def View.holds (v : View) (y : Bay) (x u : Nat) : Cond → Bool
  | .tok mask => (v.tile x).toks.toList.zipIdx.all (fun o => !mask.getLsbD o.2 || !o.1.out)
  | .sem n c => c.toNat ≤ (nth (v.tile x).sems n.toNat {}).count.toNat
  | .semw n c => c.toNat ≤ (nth (v.tile x).sems n.toNat {}).count.toNat
  | .mtx m => !(nth (v.tile x).mtxs m.toNat {}).held
  | .bc j c => c.toNat ≤ (nth (nth v.bcs (x / 16) (Vector.replicate 16 0)) j.toNat 0).toNat
  | .step => y.arrived ≤ v.completed
  | .col id => !y.acceptedBy id.toNat u || v.delivered.contains id.toNat
  | .pop n => n ≤ v.left (y.tile x) x u
  | .resident fn => v.resident.contains fn
  | .watch a val mask c => ((y.tile x).observed u (.watch a val mask c)).isSome

/-- Whether a condition of tile `x` at protected cycle `u` holds as the bay stands. -/
def Bay.holds (y : Bay) (x u : Nat) (c : Cond) : Bool := (y.look (u + 1)).holds y x u c

/-- The increments armed on a semaphore of a tile. -/
def Tile.armedOn (t : Tile) (n : Nat) : Nat :=
  t.toks.toList.foldl (fun a k => match k.arm with
    | some (.sem m c) => if m = n then a + c.toNat else a
    | _ => a) 0

/-- The CALLs of protected cycle `u` whose callee can no longer be staged (11_tables R298). -/
def Bay.unstaged (y : Bay) (u : Nat) : List Enter := y.entering.filter (fun e => e.due == u && e.fault.isSome)

/-- Whether a condition is CALL's residency, which is not that of a word of its protected cycle. -/
def Cond.isResident : Cond → Bool
  | .resident _ => true
  | _ => false

/-- Whether nothing pending can make a condition of a bay frozen at its protected cycle hold (13_counters R346; 10_queues R280;
11_tables R298): the bay goes on and the word traps. -/
def Bay.hopeless (y : Bay) (x u : Nat) : Cond → Bool
  | .sem n c => (nth (y.tile x).sems n.toNat {}).count.toNat + (y.tile x).armedOn n.toNat < c.toNat
  | .semw n c => (nth (y.tile x).sems n.toNat {}).count.toNat + (y.tile x).armedOn n.toNat < c.toNat
  | .mtx m => !(nth (y.tile x).mtxs m.toNat {}).armed
  | .pop _ => (y.tile x).oq.jobs.all (fun j => j.finished) || (y.tile x).ended (u + 1) u
  | .resident fn => (y.unstaged u).any (fun e => e.fn == fn)
  | _ => false

/-! ## The words of a protected cycle -/

/-- The rotations under which stream `k` of a tile issues in tc `u`: those that stand, or that land then
(05_control_registers R128). -/
def Tile.rotAt (t : Tile) (k u : Nat) : BitVec 4 × BitVec 3 :=
  ((t.pend.filter (fun r => r.due ≤ u)).flatMap (fun r => r.what)).foldl (fun m l => match l with
    | .cr j num v => if j = k ∧ num = 0x04#8 then (v.extractLsb' 0 4, v.extractLsb' 8 3) else m
    | _ => m) ((t.strm k).ra, (t.strm k).rp)

/-- The state in which the word at `cur` of stream `k` reads its operands for protected cycle `u`: its registers and its queue's mode
are those the sample saw (R144), its register names those of its issue (R128). -/
def State.asSampled (s : State) (b x k u : Nat) (cur : Nat × Nat) : State :=
  let t := s.tile b x
  let v := ((s.bay b).viewAt u).tile x
  let r := t.rotAt k u
  let w : Strm := { nth v.strms k {} with cur := cur, ra := r.1, rp := r.2 }
  { s with core := .tile b x k, bays := put s.bays b ((s.bay b).setTile x ({ t with oq := v.oq }.setStrm k w)) }

/-- The condition of the word at `cur` of stream `k` of tile `x`, due in tc `u`; none for a word that cannot be fetched. -/
def State.condAt (s : State) (b x k u : Nat) (cur : Nat × Nat) : Option Cond :=
  let c := CoreId.tile b x k
  let fn := BitVec.ofNat 24 cur.1
  match (s.fetchAt c fn cur.2).map decode with
  | some (.ok i) => if s.badFetch c fn cur.2 then none else (s.asSampled b x k u cur).condOf i
  | _ => none

/-- The word due next on a core, with its function and offset; none when nothing is due by tc `u`. -/
def State.dueWord (s : State) (c : CoreId) (v : Strm) (u : Nat) : Option (BitVec 24 × Nat × Code) :=
  match v.next with
  | .halted => none
  | .word fn off base =>
    match s.fetchAt c fn off with
    | none => none
    | some w => if base + (headOf w).idle.toNat ≤ u then some (fn, off, w) else none

/-- The conditions of the words of tile `x` due in tc `u`, in stream order; a pop's count takes in the pops of the streams before it
(10_queues R280). -/
def State.condsOf (s : State) (b x u : Nat) : List (Nat × Cond) :=
  ((List.range 9).foldl (fun (m : List (Nat × Cond) × Nat) k =>
    match s.dueWord (.tile b x k) ((s.tile b x).strm k) u with
    | none => m
    | some (fn, off, _) => match s.condAt b x k u (fn.toNat, off) with
      | none => m
      | some (.pop n) => (m.1 ++ [(k, .pop (m.2 + n))], m.2 + n)
      | some c => (m.1 ++ [(k, c)], m.2)) ([], 0)).1

/-- The conditions of protected cycle `u` of a bay whose sample was false: those of the words due in it, and the residency of the
callees entered there (R35, R36). -/
def State.waitsAt (s : State) (b u : Nat) : List Wait :=
  let y := s.bay b
  let v := y.viewAt u
  let words := (List.range 128).flatMap (fun x => (s.condsOf b x u).filterMap (fun c =>
    let false_ := match c.2 with
      | .watch _ _ _ _ => true
      | c => !v.holds y x u c
    if false_ then some ({ tile := x, strm := c.1, cond := c.2 } : Wait) else none))
  words ++ (y.entering.filter (fun e => e.due == u && ((y.tile e.tile).strm e.strm).next != .halted
      && !v.resident.contains e.fn)).map (fun e =>
    { tile := e.tile, strm := e.strm, cond := .resident e.fn })

/-! ## Freezes (R36 to R38) -/

/-- The conditions of a freeze that have not been seen true. -/
def Freeze.failing (f : Freeze) : List Wait := f.waits.filter (fun w => !w.ok)

/-- Whether some failing condition can never hold: the word issues at once and traps (13_counters R346; 10_queues R280). -/
def Freeze.lost (f : Freeze) (y : Bay) : Bool :=
  f.failing.any (fun w => !y.holds w.tile f.tc w.cond && y.hopeless w.tile f.tc w.cond)

/-- The failing conditions of a freeze looked at again (R36). -/
def Freeze.resample (f : Freeze) (y : Bay) : Freeze :=
  { f with waits := f.waits.map (fun w =>
      { w with ok := w.ok || y.holds w.tile f.tc w.cond || y.hopeless w.tile f.tc w.cond }) }

/-- A freeze as it stands in wc `wc`: it ends 6 wc after the wc in which the last failing condition turned true, or at once when a
failing wait can never end (13_counters R346; 10_queues R280). -/
def Freeze.inWc (f : Freeze) (y : Bay) (wc : Nat) : Freeze :=
  let g := f.resample y
  { g with resume := if f.lost y then some wc
      else if f.resume.isNone && g.failing.isEmpty then some (wc + 6) else f.resume }

/-- The freeze that begins in this wc before tc `y.tclk` when a sample of it was false. -/
def State.newFreeze (s : State) (b : Nat) : Option Freeze :=
  let u := (s.bay b).tclk
  match s.waitsAt b u with
  | [] => none
  | ws => some { tc := u, since := s.wc, kinds := (ws.map (·.cond.counter)).dedup, resume := none, waits := ws }

/-- Bay `b` with its freeze before the tc due next as it stands in this wc; one that has ended is not begun again. A callee found
resident stays so (R140). -/
def State.refreeze (s : State) (b : Nat) : Bay :=
  let y := s.bay b
  let f : Option Freeze := match y.freeze with
    | some f => some f
    | none => if y.released.any (fun (g : Freeze) => g.tc == y.tclk) then none else s.newFreeze b
  match f with
  | none => y
  | some f =>
    let f := f.inWc y s.wc
    let y := f.waits.foldl (fun (z : Bay) (w : Wait) => match w.cond with
      | .resident fn => if z.resident fn then z.enterFn fn else z
      | _ => z) y
    { y with freeze := some f }

/-! ## WAITA's watcher (09_ordering R271) -/

/-- The words of a stream due by tc `last` on its known path: the target of a taken transfer counts from its tc + 5
(05_control_registers R133). -/
def State.pathTo (s : State) (c : CoreId) (u : Strm) (last : Nat) : List (Nat × Nat × Nat) :=
  match u.next with
  | .halted => []
  | .word fn off base =>
    match u.xfer with
    | none => (s.following c fn last 7 off base).map (fun w => (fn.toNat, w.1, w.2))
    | some x =>
      (s.following c fn (min last (x.tc + 4)) 5 off base).map (fun w => (fn.toNat, w.1, w.2))
        ++ (s.following c x.fn last 7 x.off (x.tc + 5)).map (fun w => (x.fn.toNat, w.1, w.2))

/-- Whether a condition is that of a WAITA. -/
def Cond.isWatch : Cond → Bool
  | .watch _ _ _ _ => true
  | _ => false

/-- The WAITA whose word the watcher of tile `x` reads: its protected cycle and its condition. It is the one that freezes the bay or,
from its sample on, the next that CT comes to. -/
def State.watching (s : State) (b x : Nat) : Option (Nat × Cond) :=
  let y := s.bay b
  let frozen := (y.freeze.toList.flatMap (fun f => f.failing.map (fun w => (f.tc, w)))).filter (fun w =>
    w.2.tile == x && w.2.cond.isWatch)
  let ahead := (s.pathTo (.tile b x 0) ((s.tile b x).strm 0) (y.tclk + 6)).filterMap (fun w =>
    if y.views.any (fun v => v.1 == w.2.2) then (s.condAt b x 0 w.2.2 (w.1, w.2.1)).map (fun c => (w.2.2, c)) else none)
  (frozen.map (fun w => (w.1, w.2.cond)) ++ ahead.filter (fun w => w.2.isWatch)).head?

/-- Whether the watcher of tile `x` has a word to read: the WAITA it watches has not been ended by an observation. -/
def State.mustWatch (s : State) (b x : Nat) : Bool :=
  (s.bay b).phase == .running && (match s.watching b x with
    | some (u, c) => ((s.tile b x).observed u c).isNone
    | none => false)

/-- A tile after its watcher has read the word of a WAITA: a read that satisfies the condition, or one that faults, is the observation
that ends the wait. -/
def State.observe (s : State) (b x u : Nat) (c : Cond) : Tile :=
  let t := s.tile b x
  match c with
  | .watch addr val mask cond =>
    match s.watchWord b addr with
    | none => { t with watch := some (u, c, true) }
    | some w => if watchHolds (cond.setWidth 3) w val mask then { t with watch := some (u, c, false) } else t
  | _ => t

/-- The state with a watcher's read counted (13_counters Table 7; log entry 18). -/
def State.countObserved (s : State) (b : Nat) (c : Cond) : State :=
  match c with
  | .watch addr _ _ _ => (s.countWatch b addr).countWalks b
  | _ => s.countWalks b

/-- WATCHER_READ: the watcher of tile `x` reads the word of the WAITA it watches. -/
def execWatcherRead (b : BitVec 3) (x : BitVec 7) (s : State) : Host.Outcome State Fault Refusal :=
  match s.watching b.toNat x.toNat with
  | some (u, c) =>
    if s.mustWatch b.toNat x.toNat then
      .next ((s.setTile b.toNat x.toNat (s.observe b.toNat x.toNat u c)).countObserved b.toNat c)
    else .refused (.notEnabled "WATCHER_READ")
  | none => .refused (.notEnabled "WATCHER_READ")

end Sys2Proof.Machine
end

