-- ==== Sys2Proof/Machine/Timetable.lean ====
section
/-! DEFINITION. One tc of a bay: the start of a tc (transfers, freezes, samples, landings, the matrix engine), the issue of
its words, and its close (joint words, safe points, traps); 02_execution R31 to R51, 05_control_registers R133, R139 to
R142. A tc takes several steps of the machine: one for its start, one for each word, one for its close (log entry 3). -/

namespace Sys2Proof.Machine

/-! ## Frames over a bay -/

/-- Every tile of a bay replaced. -/
def Bay.mapTiles (y : Bay) (f : Nat → Tile → Tile) : Bay :=
  { y with tiles := Vector.ofFn (fun x : Fin 128 => f x.val y.tiles[x.val]) }

/-- Every stream of a tile replaced. -/
def Tile.mapStrms (t : Tile) (f : Nat → Strm → Strm) : Tile :=
  { t with strms := Vector.ofFn (fun k : Fin 9 => f k.val t.strms[k.val]) }

/-- The tile and stream numbers of a bay in order (02_execution R49). -/
def allCores : List (Nat × Nat) := (List.range 128).flatMap (fun x => (List.range 9).map (fun k => (x, k)))

/-! ## Transfers and ends of bodies (05_control_registers R133; 02_execution R51) -/

/-- A stream at the start of tc `u`: a transfer taken five tc ago sends it to its target. -/
def Strm.turnTo (v : Strm) (u : Nat) : Strm :=
  match v.next, v.xfer with
  | .word _ _ _, some x =>
    if x.tc + 5 ≤ u then { v with next := .word x.fn x.off (x.tc + 5), xfer := none } else v
  | _, _ => v

/-- Whether stream `k` of tile `x` has issued the last word of its body and taken no transfer (R51). -/
def Bay.pastEnd (y : Bay) (x k : Nat) (v : Strm) : Bool :=
  match v.next, v.xfer, v.next with
  | .word fn off _, none, _ =>
    match y.fnOf x fn with
    | none => false
    | some f => match (f.bodies[k]?).getD none with
      | some ws => ws.length ≤ off
      | none => true
  | _, _, _ => false

/-- The bay after the transfers and ends of bodies of the start of tc `u`. -/
def Bay.turnStreams (y : Bay) (u : Nat) : Bay :=
  y.mapTiles (fun x t => t.mapStrms (fun k v =>
    let v := v.turnTo u
    if y.pastEnd x k v then { v with next := .halted } else v))

/-! ## Requests (02_execution R44 to R46) -/

/-- The requests of a bay that were latched in time for a safe point in tc `t`: before the start of tc t − 6. -/
def Bay.timely (y : Bay) (t : Nat) : List (Request × Nat) := y.requests.filter (fun r => r.2 + 6 ≤ t)

/-- The request taken first, and the requests that stay: a debug stop alone, all others as one switch. -/
def Bay.take (y : Bay) (rs : List (Request × Nat)) : Bay :=
  if rs.isEmpty then y
  else if rs.any (fun r => r.1 == Request.debug) then
    { y with phase := .taken .debug, requests := y.requests.filter (fun r => r.1 != Request.debug || !rs.contains r) }
  else { y with phase := .taken .switch, requests := y.requests.filter (fun r => !rs.contains r) }

/-- Whether a bay is parked: frozen on a hold whose protected cycle follows a safe point (R45). -/
def Bay.isParked (y : Bay) : Bool :=
  y.freeze.isSome && (match y.safeAt with
    | some t => t + 1 == y.tclk
    | none => false)

/-! ## The rank that a bay runs next (02_execution R55, R56) -/

/-- A production rank that a bay could run next, with its completed steps. -/
structure Candidate where
  job : Word
  rank : BitVec 20
  steps : Word
  deriving DecidableEq, Repr

/-- Whose it is. -/
def Candidate.name (c : Candidate) : Word × BitVec 20 := (c.job, c.rank)

/-- An assigned rank as a candidate: switched out, or stopped by a trap on a bay that another rank has since, and not waiting at
an incomplete step barrier (R56), with the steps of its own; never launched here, with those its job has completed. -/
def State.candidate (s : State) (a : Assigned) : Option Candidate :=
  if a.filler || (s.bayOf a.job a.rank).isSome then none
  else match s.parkedOf a.job a.rank with
    | some p => if p.done || p.held then none else some { job := a.job, rank := a.rank, steps := p.steps }
    | none => some { job := a.job, rank := a.rank,
                     steps := ((s.jobs.find? (fun j => j.id == a.job)).map Job.milestone).getD 0 }

/-- The production ranks assigned to a bay that it could run next (R56). -/
def State.eligible (s : State) (b : Nat) : List Candidate := (s.bay b).assigned.filterMap s.candidate

/-- Whether rank `p` goes before rank `q`: fewer completed steps, then the lower rank id (R56). -/
def Candidate.before (p q : Candidate) : Bool :=
  p.steps.toNat < q.steps.toNat || (p.steps == q.steps && p.rank.toNat < q.rank.toNat)

/-- The rank that a bay steward chooses to run next (R56). -/
def State.nextRank (s : State) (b : Nat) : Option Candidate :=
  (s.eligible b).foldl (fun m p => match m with
    | none => some p
    | some q => some (if p.before q then p else q)) none

/-- Whether a bay stands at a step safe point whose barrier has not completed. -/
def Bay.atStep (y : Bay) : Bool := y.completed < y.arrived

/-- Of the requests `rs` those that bay `b` takes now: at a step safe point a rank switch by itself waits until another
production rank may run next; the current rank stays parked (R56). -/
def State.granted (s : State) (b : Nat) (rs : List (Request × Nat)) : List (Request × Nat) :=
  let y := s.bay b
  if y.atStep && !y.lost && rs.all (fun r => r.1 == Request.switch) && (s.nextRank b).isNone then [] else rs

/-! ## Freezes (R35 to R38; 19_boundaries R400) -/

/-- The bay with one more frozen wc, counted once for each cause in `kinds` (13_counters Table 7). -/
def Bay.countFrozen (y : Bay) (kinds : List Nat) : Bay :=
  kinds.foldl (fun z i => z.count i) ({ y with frzc := y.frzc + 1 }.count 20)

/-- Whether the freeze of a bay ends in wc `wc`. -/
def Bay.thaws (y : Bay) (wc : Nat) : Bool :=
  match y.freeze with
  | some f => match f.resume with
    | some w => w ≤ wc
    | none => false
  | none => false

/-- The bay with its freeze ended: the tc it stands before begins next, without another freeze. -/
def Bay.release (y : Bay) : Bay := { y with freeze := none, released := if y.freeze.isSome then y.freeze else y.released }

/-- FREEZE_RELEASE (R36): a frozen bay whose protected cycle's condition turned true six wc ago resumes. -/
def execFreezeRelease (b : BitVec 3) (s : State) : Host.Outcome State Fault Refusal :=
  let y := s.bay b.toNat
  if y.phase = .running ∧ y.thaws s.wc then .next (s.setBay b.toNat y.release)
  else .refused (.notEnabled "FREEZE_RELEASE")

/-! ## The start of a tc -/

/-- A tile after the event counters whose window begins in tc `u` are cleared (13_counters R351). -/
def Tile.clearWindows (t : Tile) (u : Nat) : Tile :=
  { t with ev := Vector.ofFn (fun i : Fin 16 =>
      let w := t.evwin[i.val].toNat
      if w ≠ 0 ∧ u % w = 0 then 0 else t.ev[i.val]) }

/-- EVENT_WINDOW_CLEAR (R351) in the bay's current tc; none in a frozen bay (02_execution R37). -/
def execEventWindowClear (b : BitVec 3) (s : State) : Host.Outcome State Fault Refusal :=
  let y := s.bay b.toNat
  if y.timed then .next (s.setBay b.toNat (y.mapTiles (fun _ t => t.clearWindows y.tclk)))
  else .refused (.notEnabled "EVENT_WINDOW_CLEAR")

/-- The matrix jobs of a tile after their A reads of tc `u`, with the traps of reads that fail (07_accumulators R214). -/
def Tile.readJobs (t : Tile) (x u : Nat) : Tile × List TrapRec :=
  let out := t.mx.map (fun j => (j, j.readNow t u))
  ({ t with mx := out.filterMap (fun p => match p.2 with
      | .ok j => some j
      | .error _ => none) },
   out.filterMap (fun p => match p.2 with
      | .ok _ => none
      | .error c => some { cause := c, tile := x, strm := 2, addr := p.1.addr, ea := 0 }))

/-- The tile result of one job in tc `u`, when it reads its destination then (R212): a write landing one tc later. -/
def MxJob.finish (j : MxJob) (t : Tile) (x u : Nat) : List Pend × List TrapRec :=
  if j.readsDest ≠ u then ([], [])
  else match j.result t with
    | .error c => ([], [{ cause := c, tile := x, strm := 2, addr := j.addr, ea := 0 }])
    | .ok (what, ev) =>
      ([{ due := u + 1, issued := j.issued, strm := 2, addr := j.addr, evs := j.evs ++ tally ev, what := what }], [])

/-- The tile after the matrix engine's work of tc `u`. A word that traps there pops nothing (00_scope R10). -/
def Tile.matrixStep (t : Tile) (x u : Nat) : Tile × List TrapRec :=
  let (v, ts) := t.readJobs x u
  let out := v.mx.map (fun j => j.finish v x u)
  let bad := t.mx.filter (fun j => match j.readNow t u with
    | .ok j => !(j.finish v x u).2.isEmpty
    | .error _ => true)
  let w : Tile := { v with
      pend := v.pend ++ out.flatMap Prod.fst
      mx := v.mx.filter (fun j => j.readsDest != u) }
  (bad.foldl (fun w j => w.takeBack 2 j.issued j.addr) w, ts ++ out.flatMap Prod.snd)

/-- The bay after the matrix engines' work of tc `u`. -/
def Bay.matrixSteps (y : Bay) (u : Nat) : Bay :=
  (List.range 128).foldl (fun (y : Bay) x =>
    let t := y.tile x
    if t.mx.isEmpty then y
    else
      let (t, ts) := t.matrixStep x u
      { y.setTile x t with traps := y.traps ++ ts }) y

/-- The writes, arrivals and matrix work of the start of tc `u` (R33; 10_queues R289; 13_counters R351). -/
def State.arrive (s : State) (b u : Nat) : State :=
  let s := s.setBay b ((s.bay b).mapTiles (fun _ t => ((t.clearWindows u).dropLanes u).receive u))
  let s := s.landBay b u
  s.setBay b ((s.bay b).matrixSteps u)

/-- The streams of a bay with a word due in tc `u`, in the order of R49. A wait whose condition still fails when another's trap
begins the tc does not issue (13_counters R346). -/
def State.dueCores (s : State) (b u : Nat) : List (Nat × Nat) :=
  let waits := ((s.bay b).released.toList.filter (fun f => f.tc == u)).flatMap (fun f => f.failing.filter (fun w => !w.cond.isResident))
  allCores.filter (fun p => !waits.any (fun w => w.tile == p.1 && w.strm == p.2) &&
    (s.dueWord (.tile b p.1 p.2) ((s.tile b p.1).strm p.2) u).isSome)

/-- Whose turn follows bay `b`'s. -/
def afterBay (b : Nat) : Turn := if b < 7 then .bayStart (b + 1) else .steward 0

/-- The state once a wc of bay `b` is over: wclk counts it (13_counters R342). -/
def State.passBay (s : State) (b : Nat) : State :=
  let y := s.bay b
  { s.setBay b { y.count 19 with wclk := y.wclk + 1 } with turn := afterBay b }

/-- The traps of CALLs whose callee could not be staged any more, as tc `u` begins in which it would have been entered: against the
CALL's word (11_tables R298; DEDUCED, log entry 92). -/
def Bay.enterTraps (y : Bay) (u : Nat) : List TrapRec :=
  (y.unstaged u).filterMap (fun e => e.fault.map (fun w => { cause := w.1, tile := e.tile, strm := e.strm, addr := e.addr, ea := w.2 }))

/-- A bay at the start of tc `u`, before anything lands: the samples of protected cycle u + 6 are taken, and those of the cycles that
are over are dropped (R36). -/
def Bay.takeSamples (y : Bay) (u : Nat) : Bay :=
  { y.sample u (u + 6) with
    views := (y.sample u (u + 6)).views.filter (fun v => u ≤ v.1)
    entering := y.entering.filter (fun e => u ≤ e.due)
    traps := y.traps ++ y.enterTraps u }

/-- The samples of protected cycle `u` with the barrier counters as they stand now: a fill that lands in the wc of a sample counts
for it (13_counters R348). -/
def Bay.sampleFills (y : Bay) (u : Nat) : Bay :=
  { y with views := y.views.map (fun v =>
      if v.1 = u then (v.1, { v.2 with bcs := Vector.ofFn (fun c : Fin 8 => y.clusters[c.val].bc) }) else v) }

/-- The bay with tc `y.tclk` begun. -/
def State.beginTc (s : State) (b : Nat) : State :=
  let u := (s.bay b).tclk
  let s := (s.setBay b ((s.bay b).takeSamples u)).arrive b u
  let s := s.setBay b ((s.bay b).sampleFills (u + 6))
  { s with turn := .issue b (s.dueCores b u) }

/-- Whether ballast duty runs in a wc in which the bay is frozen or has no rank, while the power controller asks for it, as a
free value says; counter 33 counts it (19_boundaries R400). -/
def State.ballast (s : State) (b : Nat) : State :=
  if s.power.bal && s.power.ben then
    let (v, s) := s.draw
    if v % 2 = 1 then s.countBay b 33 else s
  else s

/-- Whether the throttle freezes the bay in this wc, as a free value says while the power controller throttles it (19_boundaries
R399 to R401). -/
def State.throttled (s : State) (b : Nat) : Bool × State :=
  if (s.bay b).throttle || (s.bay b).hot then
    let (v, s) := s.draw
    (v % 2 == 1, s)
  else (false, s)

/-- A wc in which bay `b` is frozen, for the causes in `kinds`. -/
def State.frozenWc (s : State) (b : Nat) (kinds : List Nat) : State :=
  ((s.setBay b ((s.bay b).countFrozen kinds)).ballast b).passBay b

/-- A running bay at its turn in a wc: throttled (19_boundaries R400), frozen, or beginning its next tc. A request is taken
at a parked bay at once (R45). -/
def State.runBay (s : State) (b : Nat) : State :=
  let (throttled, s) := s.throttled b
  let s := s.setBay b ((s.bay b).turnStreams (s.bay b).tclk)
  let y := s.refreeze b
  if y.freeze.isSome && !y.thaws s.wc then
    (s.setBay b (if y.isParked then y.take (s.granted b y.requests) else y)).frozenWc b
      ((y.freeze.map (·.kinds)).getD [] ++ (if throttled then [30] else []))
  else if throttled then s.frozenWc b [30]
  else (s.setBay b y.release).beginTc b

/-- A trapped bay: the writes of its earlier words still land, one tc after another, and raise nothing (15_traps R376). -/
def State.drainTrapped (s : State) (b : Nat) : State :=
  let y := s.bay b
  if (List.range 128).any (fun x => !(y.tile x).pend.isEmpty || !(y.tile x).mx.isEmpty) then
    let s := s.arrive b y.tclk
    let z := s.bay b
    s.setBay b { z with traps := y.traps, tclk := y.tclk + 1 }
  else s

/-- The end of a wc in which bay `b` runs no rank: wclk counts it once the bay has mustered (13_counters R342). -/
def State.restBay (s : State) (b : Nat) : State := if (s.bay b).clocked then s.passBay b else { s with turn := afterBay b }

/-- Whether every token of a bay has completed (R46). -/
def Bay.tokensDone (y : Bay) : Bool :=
  (List.range 128).all (fun x => (y.tile x).cmds.isEmpty && (y.tile x).toks.toList.all (fun k => !k.out))

/-- Every dirty line of a tile written back and every line dropped. -/
def State.drainTile (s : State) (b x : Nat) : State := s.dropLines b x ((s.tile b x).lines.map (·.no))

/-- Every line cache of a bay written back and emptied (09_ordering R267); what it had written of CXL and companion lines goes on
to their home agent. -/
def State.drainLines (s : State) (b : Nat) : State :=
  let far := (List.range 128).flatMap (fun x =>
    ((s.tile b x).lines.filter (fun l => l.dirty && !dieHomed (128 * l.no))).map (fun l => l.no))
  far.foldl State.writeBackDie ((List.range 128).foldl (fun s x => s.drainTile b x) s)

/-- A bay whose request was taken, in one more wc: once its tokens have completed, one that a debugger is given has its line caches
written back and emptied first (R46; 09_ordering R267). -/
def State.handOver (s : State) (b : Nat) : State :=
  if (s.bay b).phase == .taken .debug && (s.bay b).tokensDone then s.drainLines b else s

/-- The turn of bay `b` in a wc. A stopped device freezes every bay (19_boundaries R401); one without power does nothing. -/
def State.bayStart (s : State) (b : Nat) : State :=
  match s.phase, (s.bay b).phase with
  | .off, _ => { s with turn := afterBay b }
  | .stopped, _ => if (s.bay b).clocked then (s.setBay b ((s.bay b).countFrozen [])).passBay b else { s with turn := afterBay b }
  | _, .running => s.runBay b
  | _, .trapped => (s.drainTrapped b).passBay b
  | _, .taken _ =>
    let (throttled, s) := s.throttled b
    (s.handOver b).frozenWc b (if throttled then [31, 30] else [31])
  | _, _ => (s.ballast b).restBay b

/-! ## The issue of a word -/

/-- Whether a major opcode's words are guarded by q registers (03_encoding R65). -/
def laneGuarded (maj : Nat) : Bool := (0x40 ≤ maj && maj ≤ 0x49) || maj == 0x60 || (0x70 ≤ maj && maj ≤ 0x72)

/-- The streams and whether steward cores execute an assigned major opcode (Table 4, R72). -/
def groupStreams (maj : Nat) : List Nat × Bool :=
  if maj ≤ 0x07 then (allStreams, true)
  else if maj = 0x20 ∨ maj = 0x30 ∨ maj = 0x31 then ([0], true)
  else if maj ≤ 0x22 then ([1], false)
  else if maj ≤ 0x2B then ([7], false)
  else if maj ≤ 0x49 then ([3, 4], false)
  else if maj = 0x60 then ([5], false)
  else if maj = 0x68 then ([6], false)
  else if maj ≤ 0x72 then ([2], false)
  else ([8], false)

/-- Whether a word with head `h` and major opcode `maj` is active on the issuing stream. -/
def State.activeWord (s : State) (h : Head) (maj : Nat) : Bool :=
  if laneGuarded maj then guardQ h s.strm != 0 else guardP h s.strm

/-- Whether the words of a major opcode produce a token, which M[6:1] names (08_memories R244; 09_ordering R256). -/
def producesToken (maj : Nat) : Bool := (0x28 ≤ maj && maj ≤ 0x2B) || maj == 0x30

/-- A word with a reserved field that its guard suppresses: the count of a WAIT is honoured all the same (05_control_registers R136),
and the token a command names completes empty (08_memories R244). -/
def State.badSuppressed (s : State) (w : Code) (maj : Nat) : State :=
  if producesToken maj && !s.onSteward then
    let kd := (w.extractLsb' 33 6).toNat
    if s.tokBusy kd then s else s.post 1 [.tokEmpty kd]
  else s.delayNext (extraWait w)

/-- Whether a major opcode has an instruction (03_encoding Table 4). -/
def assignedMajor (maj : Nat) : Bool :=
  maj ≤ 0x07 || (0x20 ≤ maj && maj ≤ 0x22) || (0x28 ≤ maj && maj ≤ 0x2B) || maj == 0x30 || maj == 0x31 || (0x40 ≤ maj && maj ≤ 0x49)
    || maj == 0x60 || maj == 0x68 || (0x70 ≤ maj && maj ≤ 0x72) || maj == 0x78

/-- Whether a word of major opcode `maj` traps on the issuing core whatever its guard fields hold (03_encoding R73, Table 5). -/
def State.alwaysTraps (s : State) (maj : Nat) : Bool :=
  if assignedMajor maj then !s.executes (groupStreams maj).1 (groupStreams maj).2 else maj < 0x80 || 0xDF < maj

/-- A word that decodes to no instruction (03_encoding R63, R72 to R74): outside its streams cause 0x003 whatever its guard;
active, cause 0x002 for an unassigned minor code and 0x004 for a reserved field. -/
def State.badWord (s : State) (w : Code) : DecodeError → State
  | .unassignedMinor h maj =>
    if !s.executes (groupStreams maj.toNat).1 (groupStreams maj.toNat).2 then s.raise 0x003
    else if s.activeWord h maj.toNat then s.raise 0x002 else s
  | .badField h maj =>
    if !s.executes (groupStreams maj.toNat).1 (groupStreams maj.toNat).2 then s.raise 0x003
    else if s.activeWord h maj.toNat then s.raise 0x004 else s.badSuppressed w maj.toNat

/-- The state in which the word `w` at (fn, off) issues on core `c`: the core is `c`, its next word follows by R32, and
performance events 0 to 17 count it. An active hint counts there, by its guard, and as an issue of its stream at a safe point too (R42;
DESIGN CHOICE, since R76 does not say; log entry 72). A word that always traps counts as active: none of its guard fields is read
(03_encoding R73; DESIGN CHOICE, log entry 98). The word is counted before it acts, so that an SRD of pmcnt counts its own issue and those of
the words before it in the same tc; R353 does not say (DESIGN CHOICE, log entry 90). -/
def State.issueAt (s : State) (c : CoreId) (fn : BitVec 24) (off : Nat) (w : Code) : State :=
  let s : State := { s with core := c }
  let s := s.setStrm { s.strm with cur := (fn.toNat, off), next := .word fn (off + c.stride) (s.tc + 1) }
  match c with
  | .tile b x k =>
    let y := s.bay b
    if s.alwaysTraps (w.extractLsb' 120 8).toNat || s.activeWord (headOf w) (w.extractLsb' 120 8).toNat then
      s.setBay b { y.count k with issued := y.issued ++ [(x, k)] }
    else s.setBay b (y.count (9 + k))
  | .steward _ => s

/-! ## The close of a tc: joint words -/

/-- Whether stream `k` of tile `x` has halted, from the tc of its HALT on (R51). -/
def Bay.halted (y : Bay) (x k : Nat) : Bool := ((y.tile x).strm k).next == .halted

/-- The joint word of a stream in this tc. -/
def Bay.jointOf (y : Bay) (x k : Nat) : Option Joint :=
  (y.joints.find? (fun j => j.1 == x && j.2.1 == k)).map (fun j => j.2.2)

/-- Whether every non-halted stream of tile `x` issued a joint word that meets `p`. -/
def Bay.tileAll (y : Bay) (x : Nat) (p : Joint → Bool) : Bool :=
  (List.range 9).all (fun k => y.halted x k || ((y.jointOf x k).map p).getD false)

/-- Whether a joint word is matched (R50, R139). -/
def Bay.matched (y : Bay) (x : Nat) : Joint → Bool
  | .rdv false st => y.tileAll x (fun j => j == .rdv false st)
  | .rdv true st => (List.range 128).all (fun x' => y.tileAll x' (fun j => j == .rdv true st))
  | .call fn _ => y.tileAll x (fun j => match j with
    | .call g _ => g == fn
    | _ => false)
  | .ret fn _ => y.tileAll x (fun j => match j with
    | .ret g _ => g == fn
    | _ => false)
  | .safe => (List.range 128).all (fun x' => y.jointOf x' 0 == some .safe)

/-- The cause of a joint word that is not matched. -/
def Joint.cause : Joint → Cause
  | .rdv _ _ => 0x042
  | .call _ _ => 0x043
  | .ret _ _ => 0x043
  | .safe => 0x044

/-- Whether tile `x` is empty at a safe point in tc `t` (R42). Of writes those of words issued before t count: in t no stream but CT
issues, and CT its SAFE, so that what else is posted there is that of suppressed words. -/
def Bay.emptyAt (y : Bay) (x t : Nat) : Bool :=
  let w := y.tile x
  w.pend.all (fun r => r.due ≤ t || r.issued == t) && w.mx.isEmpty && w.lanes.isEmpty && w.oq.jobs.isEmpty && w.inbox.isEmpty
    && w.chans.toList.all (fun c => c.isEmpty)
    && (List.range 9).all (fun k => match (w.strm k).xfer with
      | some e => e.tc + 4 ≤ t
      | none => true)
    && !y.issued.any (fun p => p.1 == x && p.2 != 0)

/-- A trap against the word a stream issued in this tc. -/
def Bay.trapOf (y : Bay) (x k : Nat) (c : Cause) : TrapRec :=
  { cause := c, tile := x, strm := k, addr := codeAddr k ((y.tile x).strm k).cur, ea := 0 }

/-- Whether two traps are against one word. -/
def TrapRec.sameWord (r q : TrapRec) : Bool := r.tile == q.tile && r.strm == q.strm && r.addr == q.addr

/-- The cause of one joint word as a joint word: a mismatch, a body absent in the callee (R139), or a bay that is not empty (R42). -/
def State.jointTraps (s : State) (b : Nat) (j : Nat × Nat × Joint) : List TrapRec :=
  let y := s.bay b
  let (x, k, w) := j
  if !y.matched x w then [y.trapOf x k w.cause]
  else match w with
    | .call fn _ => if (s.bodyLength b x fn k).isNone then [y.trapOf x k 0x047] else []
    | .ret fn _ => if (s.bodyLength b x fn k).isNone then [y.trapOf x k 0x047] else []
    | .safe => if y.emptyAt x y.tclk then [] else [y.trapOf x k 0x045]
    | .rdv _ _ => []

/-- The traps of bay `b`'s tc at its close: those raised in it, those of the joint words, and those of overfull exchange channels
(10_queues R289). A word raises the lowest of its causes (03_encoding R74), so a mismatched CALL raises 0x043 whatever else it has
raised (R139). -/
def State.closeTraps (s : State) (b : Nat) : List TrapRec :=
  let own := (s.bay b).traps
  let joint := (s.bay b).joints.flatMap (s.jointTraps b)
  own.filter (fun r => !joint.any (fun q => r.sameWord q && q.cause.toNat < r.cause.toNat))
    ++ joint.filter (fun q => !own.any (fun r => r.sameWord q && r.cause.toNat ≤ q.cause.toNat))
    ++ (List.range 128).flatMap (fun x => ((s.bay b).tile x).fullTraps)

/-! ## What matched joint words do -/

/-- Function `fn` in every code store whatever its capacity: code staged for the rank stays resident for a RET (R140), also
across a switch, which saves no code (log entry 25). -/
def State.stageNow (s : State) (b : Nat) (fn : BitVec 24) : State :=
  if (s.bay b).resident fn then s
  else match s.stageFn b fn.toNat with
    | some f =>
      let y := s.bay b
      s.setBay b { y with clusters := y.clusters.map (fun c =>
        if c.code.any (fun g => g.fn == fn) then c else { c with code := c.code ++ [{ f with entered := true }] }) }
    | none => s

/-- A matched CALL or RET of stream `k` of tile `x`: a transfer, and for a CALL the return point in b7 and the residency hold to come
(R139, R140). -/
def State.takeJoint (s : State) (b : Nat) (j : Nat × Nat × Joint) : State :=
  let (x, k, w) := j
  let s : State := { s with core := .tile b x k }
  match w with
  | .call fn off =>
    let cur := s.strm.cur
    let back := s.keptFrom s.core (BitVec.ofNat 24 cur.1) cur.2 s.tc
    let e : Enter := { due := s.tc + 5, tile := x, strm := k, fn := fn, addr := s.addr }
    let s := (s.post 1 (s.landB 7 (0#8 ++ BitVec.ofNat 24 cur.1 ++ BitVec.ofNat 32 back))).transfer fn off
    s.setBay b { s.bay b with entering := (s.bay b).entering ++ [e] }
  | .ret fn off => (s.stageNow b fn).transfer fn off
  | _ => s

/-- The distinct callees of the tc's CALLs, by cluster. -/
def Bay.callees (y : Bay) : List (Nat × BitVec 24) :=
  (y.joints.filterMap (fun j => match j.2.2 with
    | .call fn _ => some (j.1 / 16, fn)
    | _ => none)).dedup

/-- Whether the sample of protected cycle `u` saw `fn` resident (R36, R140). -/
def Bay.sampledResident (y : Bay) (fn : BitVec 24) (u : Nat) : Bool := (y.viewAt u).resident.contains fn

/-- The bay with `fn` requested first of every cluster that lacks it; a request that a full queue loses is counted (R288;
13_counters Table 7). -/
def Bay.urgeFn (y : Bay) (fn : BitVec 24) : Bay :=
  let lost := (List.range 8).countP (fun cl => !y.hasFn cl fn && 16 ≤ (y.cluster cl).prefetch.length
    && !(y.cluster cl).prefetch.contains fn)
  ({ y with clusters := y.clusters.map (fun (c : Cluster) => if c.code.any (fun f => f.fn == fn) then c else c.urge fn) } : Bay).count 44 lost

/-- A callee as its CALL leaves it (R140; 10_queues R288; 03_encoding R90): marked entered where it is resident, and at the head
of the prefetch queue of every cluster that lacks it; then its successors join the queue of the calling cluster. One found
resident by the sample, so that no freeze awaits it (R36), and evicted since is staged again at once. -/
def State.enterCallee (s : State) (b : Nat) (e : Nat × BitVec 24) : State :=
  let (cl, fn) := e
  let s := if (s.bay b).sampledResident fn ((s.bay b).tclk + 5) then (s.stageAll b fn).getD s else s
  let y := s.bay b
  let succ := match y.fnOf (16 * cl) fn with
    | some f => f.succ
    | none => ((s.stageFn b fn.toNat).map (fun (f : Fn) => f.succ)).getD []
  let y := (y.enterFn fn).urgeFn fn
  s.setBay b (succ.foldl (fun z g => z.requestFn cl g) y)

/-- The job of a bay with the rank's arrival at its step barrier posted (R26). -/
def Job.arrive (j : Job) (rank : BitVec 20) : Job :=
  if j.arrived.contains rank then j else { j with arrived := j.arrived ++ [rank] }

/-- A step rendezvous posts the rank's arrival (R50). -/
def State.postArrival (s : State) (b : Nat) : State :=
  let y := s.bay b
  let s := s.setBay b { y with arrived := y.arrived + 1 }
  { s with jobs := s.jobs.map (fun j => if j.id = y.job then j.arrive y.rankid else j) }

/-- The clearing of a safe point, landing one tc later on every tile, with what the liveness table of the function in which each
CT stands names as live (05_control_registers R142). -/
def Bay.postClear (y : Bay) (t : Nat) : Bay :=
  y.mapTiles (fun x w =>
    let cur := (w.strm 0).cur
    let r : Pend := { due := t + 1, issued := t, strm := 0, addr := codeAddr 0 cur, evs := [],
                      what := [.clear (y.liveAt x (BitVec.ofNat 24 cur.1) cur.2)] }
    { w with pend := w.pend ++ [r] })

/-! ## The carve-out at a safe point (08_memories R226) -/

/-- A tile after a change of carve from `old` to `new`: line caches whose units change role are written back and dropped
before this (`State.applyCarve`); slots beyond the new scratchpad are lost. -/
def Tile.recarve (t : Tile) (new : Word) : Tile :=
  { t with slots := t.slots.filter (fun e => e.1 % 1024 < 128 * spUnits new (e.1 / 1024)) }

/-- The functions kept when the code store shrinks to `cap` bytes: those in which a stream stands, and of the others the newest
that fit (log entry 53). -/
def keepFns (cap : Nat) (used : List (BitVec 24)) (fs : List Fn) : List Fn :=
  fs.reverse.foldl (fun keep f => if used.contains f.fn || codeBytes (f :: keep) ≤ cap then f :: keep else keep) []

/-- The functions in which the streams of a bay stand. -/
def Bay.usedFns (y : Bay) : List (BitVec 24) :=
  (allCores.filterMap (fun p => match ((y.tile p.1).strm p.2).next, ((y.tile p.1).strm p.2).xfer with
    | .halted, _ => none
    | .word _ _ _, some x => some x.fn
    | .word fn _ _, none => some fn)).dedup

/-- The units that are line cache before and after a change of carve: above the scratchpad units and below those of the code
store (08_memories R224, R226). -/
def keptUnits (old new : Word) : Nat :=
  (List.range 8).foldl (fun n g =>
    n + (min (8 - codeUnits old g) (8 - codeUnits new g) - max (spUnits old g) (spUnits new g))) 0

/-- The lines of a tile that stand in units taken from its line cache written back and dropped (08_memories R226). The spec does
not place lines in units: the newest lines, 512 a unit, stand in those that stay. DESIGN CHOICE (log entry 78). -/
def State.shedLines (s : State) (b x : Nat) (old new : Word) : State :=
  s.dropLines b x (((s.tile b x).lines.drop (512 * keptUnits old new)).map (·.no))

/-- The carve value waiting at cluster `cl` of bay `b` takes effect, in one wc on its 16 tiles. -/
def State.applyCarve (s : State) (b cl : Nat) : State :=
  match ((s.bay b).cluster cl).carveNext with
  | none => s
  | some new =>
    let xs := (List.range 16).map (fun i => 16 * cl + i)
    let old := ((s.bay b).cluster cl).carve
    let s := xs.foldl (fun s x => s.shedLines b x old new) s
    let y := s.bay b
    let y := xs.foldl (fun (y : Bay) x => y.setTile x ((y.tile x).recarve new)) y
    let y := y.setCluster cl { y.cluster cl with carve := new, carveNext := none }
    let c := y.cluster cl
    s.setBay b (y.setCluster cl { c with code := keepFns (y.codeCapacity cl) y.usedFns c.code })

/-- Every waiting carve value of a bay takes effect. -/
def State.applyCarves (s : State) (b : Nat) : State := (List.range 8).foldl (fun s cl => s.applyCarve b cl) s

/-! ## The close -/

/-- A tile at the end of tc `u`: the ports and reads of the tc are over. -/
def Tile.endTc (t : Tile) (u : Nat) : Tile :=
  { t with ports := t.ports.filter (fun p => u < p.tc), mxReads := t.mxReads.filter (fun c => u < c) }

/-- The tiles whose array is occupied in tc `u`. -/
def Bay.occupancy (y : Bay) (u : Nat) : Nat :=
  ((List.range 128).filter (fun x => (y.tile x).mx.any (fun j => j.occupies u))).length

/-- The bay with tc `u` counted (13_counters Table 7). -/
def Bay.countTc (y : Bay) (u : Nat) : Bay := (y.count 18).count 32 (y.occupancy u)

/-- The bay once tc `u` is over without a trap. -/
def Bay.nextTc (y : Bay) (u : Nat) : Bay :=
  let y := y.countTc u
  { y.mapTiles (fun _ t => t.endTc u) with tclk := u + 1, joints := [], issued := [] }

/-- The safe point of tc `t`, at a step boundary when the rank has arrived at a barrier that is not complete: the
clearing, a carve change, and a request latched in time (R44, R56; 08_memories R226). -/
def State.safePoint (s : State) (b t : Nat) : State :=
  let y := s.bay b
  let s := s.setBay b { y.postClear t with safeAt := some t, stepSafe := y.completed < y.arrived }
  let s := s.applyCarves b
  let y := s.bay b
  s.setBay b (y.take (s.granted b (y.timely t)))

/-- The joint words of the tc that are CALLs and raise nothing: their b7 is written also when another word traps (15_traps
R376). -/
def Bay.goodCalls (y : Bay) (ts : List TrapRec) : List (Nat × Nat × Joint) :=
  y.joints.filter (fun j => (match j.2.2 with
    | .call _ _ => true
    | _ => false) && !ts.any (fun q => q.tile == j.1 && q.strm == j.2.1 && q.addr == (y.trapOf j.1 j.2.1 0).addr))

/-- The joint words of the tc that are SAFEs, when there are any and none of them raises a trap: a good safe point. -/
def Bay.goodSafe (y : Bay) (ts : List TrapRec) : Bool :=
  let js := y.joints.filter (fun j => j.2.2 == .safe)
  !js.isEmpty && js.all (fun j => !ts.any (fun q => q.tile == j.1 && q.strm == j.2.1 && q.addr == (y.trapOf j.1 j.2.1 0).addr))

/-- Tile `x` without the messages of the XSNDs in `bad` (10_queues R289; 00_scope R10): those still on their way, and those that
reached its channels, each as many places before the end of its channel as others of its source came after it. -/
def Tile.unsend (t : Tile) (x : Nat) (bad : List (Nat × Nat × Word)) : Tile :=
  let out (m : XMsg) : Bool := bad.contains (m.sentBy x)
  let after (m : XMsg) : Nat := t.arrived.countP (fun q => q.src == m.src && m.tc < q.tc)
  let without (l : List Row) (n : Nat) : List Row := if n < l.length then l.eraseIdx (l.length - 1 - n) else l
  { t with
    chans := (t.arrived.filter out).foldl (fun c m => put c m.src (without (nth c m.src []) (after m))) t.chans
    inbox := t.inbox.filter (fun m => !out m)
    arrived := t.arrived.filter (fun m => !out m) }

/-- The bay without the messages of the XSNDs that raise 0x055 in this tc, on every tile they were sent to. -/
def Bay.unsend (y : Bay) : Bay :=
  let bad := (List.range 128).flatMap (fun x => (y.tile x).overfull.map (fun m => m.sentBy x))
  if bad.isEmpty then y else y.mapTiles (fun x t => t.unsend x bad)

/-- The close of bay `b`'s tc: strict pushes, joint words, then a stop at any trap (R48), else the next tc. -/
def State.closeTc (s : State) (b : Nat) : State :=
  let u := (s.bay b).tclk
  let s := s.setBay b ((s.bay b).mapTiles (fun _ t => t.strictPush u))
  let ts := s.closeTraps b
  if !ts.isEmpty then
    let s := ((s.bay b).goodCalls ts).foldl (fun s j => s.takeJoint b j) s
    let y := ((s.bay b).countTc u).unsend
    let y := if y.goodSafe ts then y.postClear u else y
    s.setBay b { y with traps := ts, phase := .trapped, trapTc := u, tclk := u + 1, freeze := none, joints := [], issued := [] }
  else
    let js := (s.bay b).joints
    let s := js.foldl (fun s j => s.takeJoint b j) s
    let s := (s.bay b).callees.foldl (fun s e => s.enterCallee b e) s
    let s := if js.any (fun j => j.2.2 == .rdv true true) then s.postArrival b else s
    let s := s.setBay b ((s.bay b).nextTc u)
    if js.any (fun j => j.2.2 == .safe) then s.safePoint b u else s

/-- The turn that closes bay `b`'s tc and wc. -/
def State.bayClose (s : State) (b : Nat) : State := (s.closeTc b).passBay b

end Sys2Proof.Machine
end

