-- ==== Sys2Proof/Machine/Snapshots.lean ====
section
/-! DEFINITION. Rank images, step snapshots and Convoy (14_contexts R363 to R368): the pages of an image, the two generations
of a snapshot, and the transfers that move an image or put a snapshot back. -/

namespace Sys2Proof.Machine

/-! ## The pages of a rank image (R363) -/

/-- The location a page-table entry names (11_tables Table 3). -/
def entryLoc (e : Nat) : Nat := e / 2 ^ 12 % 4 * 2 ^ 52 + e / 2 ^ 28 % 2 ^ 36 * 2 ^ 16

/-- An entry that names location `loc` instead. -/
def withLoc (e loc : Nat) : Nat :=
  e % 2 ^ 12 + tierOf loc % 4 * 2 ^ 12 + e / 2 ^ 14 % 2 ^ 14 * 2 ^ 14 + paOf loc / 2 ^ 16 * 2 ^ 28

/-- A page of an image: where its entry lies, its location and its size in bytes. -/
structure ImagePage where
  entry : Nat
  loc : Nat
  size : Nat
  deriving DecidableEq, Repr

/-- The pages that the table at `tab` and the tables below it map in HBM and LPDDR, aperture pages apart; the list gives the
number of entries at each level. -/
def State.imageUnder (s : State) : List Nat → Nat → List ImagePage
  | [], _ => []
  | n :: rest, tab => (List.range n).flatMap (fun i =>
      let e := (s.homeLe (tab + 8 * i) 8).1
      if e % 2 = 0 then []
      else if e / 8 % 2 = 0 then s.imageUnder rest (entryLoc e)
      else if tierOf (entryLoc e) ≤ 1 ∧ e / 2 ^ 14 % 2 = 0 ∧ rest.length ≤ 1 then
        [{ entry := tab + 8 * i, loc := entryLoc e, size := if rest.isEmpty then 2 ^ 16 else 2 ^ 29 }]
      else [])

/-- The pages of the image of a rank whose page tables lie at `root` (R363). -/
def State.imagePages (s : State) (root : Word) : List ImagePage := s.imageUnder [1024, 8192, 8192] root.toNat

/-- The numbers of the 64 KiB pages that some pages of an image hold, in order. -/
def pageNumbers (ps : List ImagePage) : List Nat :=
  ps.flatMap (fun p => (List.range (p.size / 65536)).map (fun i => p.loc / 65536 + i))

/-! ## Generations (R366, R368) -/

/-- The bytes of 64 KiB page `no` as its home holds them. -/
def State.pageBytes (s : State) (no : Nat) : List Byte := (s.homeRead (65536 * no) 65536).1

/-- The bytes a generation holds of a page. -/
def Gen.page (g : Gen) (no : Nat) : Option (List Byte) := (g.pages.find? (fun p => p.1 == no)).map Prod.snd

/-- A generation overwritten with an image: its context, and of its pages those that are marked or that the generation does not
hold; the others it holds already (R366). -/
def Gen.overwrite (g : Gen) (s : State) (ctx : List Byte) (pages marked : List Nat) : Gen :=
  { ctx := ctx
    pages := pages.map (fun no => (no, if marked.contains no then s.pageBytes no else (g.page no).getD (s.pageBytes no))) }

/-- The generation that is the current snapshot, and the other. -/
def Snapshot.current (z : Snapshot) : Gen := if z.second then z.gens.2 else z.gens.1
def Snapshot.other (z : Snapshot) : Gen := if z.second then z.gens.1 else z.gens.2

/-- A snapshot with its other generation overwritten by the image of the step in progress. -/
def Snapshot.write (z : Snapshot) (s : State) (ctx : List Byte) (pages : List Nat) : Snapshot :=
  let g := z.other.overwrite s ctx pages (z.before ++ z.since)
  { z with gens := if z.second then (g, z.gens.2) else (z.gens.1, g), written := true, after := [] }

/-- A snapshot at the completion of the step barrier: the generation just written is current (R366). -/
def Snapshot.flip (z : Snapshot) : Snapshot :=
  if z.written then { z with second := !z.second, written := false, before := z.since, since := z.after, after := [] } else z

/-- Whether a snapshot is of a rank. -/
def Snapshot.is (z : Snapshot) (job : Word) (rank : BitVec 20) : Bool := z.job == job && z.rank == rank

/-- The snapshot of a rank. -/
def State.snapshotOf (s : State) (job : Word) (rank : BitVec 20) : Option Snapshot :=
  s.snapshots.find? (fun z => z.is job rank)

/-- The state with the image of the step in progress of a rank written to the local copy of its snapshot. -/
def State.writeSnapshot (s : State) (job : Word) (rank : BitVec 20) (root : Word) (ctx : List Byte) : State :=
  let pages := pageNumbers (s.imagePages root)
  let z := ((s.snapshotOf job rank).getD { job := job, rank := rank }).write s ctx pages
  { s with snapshots := z :: s.snapshots.filter (fun d => !d.is job rank) }

/-- The state with the first snapshot of a rank that has none: its launch record, with its pages as the job manager wrote them
(R368), or the image it resumes from (R367). -/
def State.firstSnapshot (s : State) (job : Word) (rank : BitVec 20) (root : Word) (launch : Bool) (ctx : List Byte) : State :=
  match s.snapshotOf job rank with
  | some _ => s
  | none =>
    let pages := pageNumbers (s.imagePages root)
    let g : Gen := { ({} : Gen).overwrite s ctx pages [] with launch := launch }
    { s with snapshots := { job := job, rank := rank, gens := (g, {}), mirrored := false } :: s.snapshots }

/-! ## Convoy (R364, R365, R367) -/

/-- Whether a bay has a rank that is not stopped by a reported trap. -/
def Bay.engaged (y : Bay) : Bool :=
  match y.phase with
  | .posted | .staged | .running | .taken _ => true
  | .trapped => !y.traps.isEmpty
  | _ => false

/-- One move of bytes at home: source, destination, length. -/
def State.moveBytes (s : State) (m : Nat × Nat × Nat) : State := s.homeWrite m.2.1 (s.homeRead m.1 m.2.2).1

/-- Where a 64 KiB page is after some pages have moved. -/
def movedPage (moves : List (ImagePage × Nat)) (no : Nat) : Nat :=
  match moves.find? (fun m => m.1.loc / 65536 ≤ no && no < (m.1.loc + m.1.size) / 65536) with
  | some m => m.2 / 65536 + (no - m.1.loc / 65536)
  | none => no

/-- A snapshot of a rank whose pages have moved. -/
def Snapshot.moved (moves : List (ImagePage × Nat)) (z : Snapshot) : Snapshot :=
  let g (g : Gen) : Gen := { g with pages := g.pages.map (fun p => (movedPage moves p.1, p.2)) }
  let m (ps : List Nat) : List Nat := ps.map (movedPage moves)
  { z with gens := (g z.gens.1, g z.gens.2), before := m z.before, since := m z.since, after := m z.after }

/-- An image's area copied with its kind byte last (R365). -/
def State.copyArea (s : State) (dst : Nat) (bs : List Byte) : State :=
  let s := s.homeWrite dst (bs.set 2 0)
  s.homeWrite (dst + 2) [bs.getD 2 0]

/-- Whose image lies at `src`: its job and rank (R357). -/
def State.imageOwner (s : State) (src : Nat) : Word × BitVec 20 :=
  (BitVec.ofNat 64 (s.homeLe (src + 8) 8).1, BitVec.ofNat 20 (s.homeLe (src + 4) 4).1)

/-- The pages of the image whose context lies at `src`. -/
def State.pagesOf (s : State) (src : Nat) : List ImagePage := s.imagePages (BitVec.ofNat 64 (s.homeLe (src + 0x28) 8).1)

/-- The image whose context lies at `src` moved (R364, R365): its pages to `frames`, in the order of its page tables, then the
frames and tiers in those tables, then the context with its kind byte last. A transfer that stops leaves kind 0. -/
def State.moveImage (s : State) (src dst : Nat) (frames : List Nat) (stopped : Bool) : State :=
  let moves := (s.pagesOf src).zip frames
  let s := moves.foldl (fun s m => s.moveBytes (m.1.loc, m.2, m.1.size)) (s.homeWrite (dst + 2) [0])
  if stopped then s
  else
    let s := moves.foldl (fun s m => s.homeWrite m.1.entry (leBytes 8 (withLoc (s.homeLe m.1.entry 8).1 m.2))) s
    let (job, rank) := s.imageOwner src
    let s : State := { s with
      snapshots := s.snapshots.map (fun z => if z.is job rank then z.moved moves else z)
      bays := s.bays.map (fun y => if y.job = job ∧ y.rankid = rank ∧ y.save.toNat = src then { y with save := BitVec.ofNat 64 dst } else y)
      parked := s.parked.map (fun p => if p.is job rank then { p with save := BitVec.ofNat 64 dst } else p) }
    s.copyArea dst (s.homeRead src (s.homeLe (src + 0x50) 8).1).1

/-- Whether a rank stands at its snapshot, put back there after a trap. -/
def State.standsBack (s : State) (job : Word) (rank : BitVec 20) : Bool := (s.snapshotOf job rank).any (fun z => z.restored)

/-- Whether a rank that no bay has is resident as a warm context, in HBM: switched out, or put back to its image after a trap
(01_device R22; 14_contexts R364). -/
def State.isWarm (s : State) (p : Parked) : Bool := (!p.live || s.standsBack p.job p.rank) && tierOf p.save.toNat == 0

/-- The contexts the device keeps warm (01_device R22). -/
def State.warm (s : State) : Nat := (s.parked.filter s.isWarm).length

/-- Whether one more context may lie at `save`: 56 are warm at most (01_device R22). -/
def State.roomFor (s : State) (save : Nat) : Bool := tierOf save ≠ 0 || s.warm < 56

/-- Whether some ranges (location, length) overlap nowhere. -/
def disjoint : List (Nat × Nat) → Bool
  | [] => true
  | r :: rs => rs.all (fun q => r.1 + r.2 ≤ q.1 || q.1 + q.2 ≤ r.1) && disjoint rs

/-- Whether a page of an image may lie at `loc`: in a tier of the device, outside the HDM range (19_boundaries R394), aligned to
its size. -/
def State.pageFits (s : State) (loc size : Nat) : Bool :=
  tierOf loc ≤ 1 && s.locOk loc size && paOf loc % size == 0 && !s.meetsHdm loc size

/-- Whether a rank is at a step boundary and runs on no bay (R364): switched out, or stopped and put back to its snapshot. -/
def State.atBoundary (s : State) (job : Word) (rank : BitVec 20) : Bool :=
  !s.bays.toList.any (fun y => y.engaged && y.job == job && y.rankid == rank)
    && (s.standsBack job rank || ((s.bayOf job rank).isNone && (s.parkedOf job rank).any (fun p => !p.live)))

/-- The save area of a rank that no bay runs. -/
def State.saveOf (s : State) (job : Word) (rank : BitVec 20) : Option Word :=
  match s.parkedOf job rank with
  | some p => some p.save
  | none => (s.bays.toList.find? (fun y => y.seated && !y.engaged && y.job == job && y.rankid == rank)).map Bay.save

/-- One part of an image to be moved: from where, to where, how many bytes. -/
abbrev Part := Nat × Nat × Nat

/-- Whether two parts may be moved together: nowhere over each other, or one within what the other moves, by the same distance, as
where two entries name one frame. -/
def partsAgree (p q : Part) : Bool :=
  p.2.1 + q.1 == q.2.1 + p.1 || (disjoint [(p.1, p.2.2), (q.1, q.2.2)] && disjoint [(p.2.1, p.2.2), (q.2.1, q.2.2)])

/-- Whether every two of some parts may be moved together. -/
def partsFit : List Part → Bool
  | [] => true
  | p :: ps => ps.all (partsAgree p) && partsFit ps

/-- Whether Convoy may move the image at `src` (R22, R362, R364): a step-boundary image in the save area of a rank at a step boundary,
all of it to one tier, where there is room, each page and the context to a place of its own that is nowhere in the image, and out
of the HDM range (19_boundaries R394). -/
def State.movable (s : State) (src dst : Nat) (frames : List Nat) (stopped : Bool) : Bool :=
  let pages := s.pagesOf src
  let (job, rank) := s.imageOwner src
  let size := (s.homeLe (src + 0x50) 8).1
  let parts : List Part := (src, dst, size) :: (pages.zip frames).map (fun m => (m.1.loc, m.2, m.1.size))
  (s.homeLe (src + 2) 1).1 == 2 && s.saveOf job rank == some (BitVec.ofNat 64 src) && s.atBoundary job rank
    && tierOf dst ≤ 1 && dst % 4096 == 0 && s.locOk dst size && !s.meetsHdm dst size
    && (tierOf src == 0 || s.roomFor dst) && frames.all (fun f => tierOf f == tierOf dst)
    && (pages.zip frames).all (fun m => s.pageFits m.2 m.1.size)
    && partsFit parts
    && parts.all (fun p => ((src, size) :: pages.map (fun g => (g.loc, g.size))).all (fun g => disjoint [g, (p.2.1, p.2.2)]))
    && (stopped || frames.length == pages.length)

/-- A job of which `rank` has not arrived at the step in progress. -/
def Job.withdraw (j : Job) (rank : BitVec 20) : Job :=
  { j with arrived := j.arrived.filter (· != rank), imaged := j.imaged.filter (· != rank) }

/-- The state in which a rank stands at its current snapshot: it has neither arrived at the step in progress nor an image of it
(R366). -/
def State.standBack (s : State) (z : Snapshot) : State :=
  { s with
    snapshots := s.snapshots.map (fun d => if d.is z.job z.rank then { d with written := false, restored := true, after := [] } else d)
    jobs := s.jobs.map (fun j => if j.id = z.job then j.withdraw z.rank else j)
    bays := s.bays.map (fun y => if y.job = z.job ∧ y.rankid = z.rank then { y with imaged := false } else y)
    parked := s.parked.map (fun p => if p.is z.job z.rank then { p with held := false } else p) }

/-- The pages of a rank's snapshot that any agent has written since it was taken (R367). -/
def Snapshot.stale (z : Snapshot) : List (Nat × List Byte) := z.current.pages.filter (fun p => z.since.contains p.1)

/-- A rank's snapshot put back (R367, R368): every page of the image written since it was taken, and the image's context. For
an initial snapshot the steward posts the launch record that it holds. A transfer that stops after `n` pages leaves kind 0 (R365). -/
def State.restoreSnapshot (s : State) (z : Snapshot) (save : Nat) (stopped : Option Nat) : State :=
  let g := z.current
  let pages := match stopped with
    | some n => z.stale.take n
    | none => z.stale
  let s := pages.foldl (fun s p => s.homeWrite (65536 * p.1) p.2) (if g.launch then s else s.homeWrite (save + 2) [0])
  if stopped.isSome then s else (if g.launch then s else s.copyArea save g.ctx).standBack z

/-- Whether a snapshot may be put back as far as the count of warm contexts goes: it may make a stopped rank one more (01_device R22). -/
def State.roomToRestore (s : State) (z : Snapshot) : Bool :=
  match s.parkedOf z.job z.rank with
  | some p => s.isWarm p || s.roomFor p.save.toNat
  | none => true

/-- Whether the completion that makes the image of a rank just written its current snapshot is on its way (R366; 13_counters
R343). -/
def State.turning (s : State) (z : Snapshot) : Bool :=
  z.written && s.jobs.any (fun j => j.id == z.job && j.change.isSome)

/-! ## Images that leave the device and come to it (R22, R362, R367) -/

/-- Whether the image of a rank may leave the device: of one that no bay runs, switched out at a step boundary whose barrier has
completed, put back to its image after a trap, or mid-step with its safe-point context marked invalid (R22, R362). -/
def State.mayDepart (s : State) (job : Word) (rank : BitVec 20) : Bool :=
  !s.bays.toList.any (fun y => y.engaged && y.job == job && y.rankid == rank)
    && (s.standsBack job rank || ((s.bayOf job rank).isNone
      && (s.parkedOf job rank).any (fun p => !p.live && !p.held && (s.homeLe (p.save.toNat + 2) 1).1 != 1)))

/-- A bay that no longer has a rank: neither assigned nor, where it stopped there, on it. -/
def Bay.forget (y : Bay) (job : Word) (rank : BitVec 20) : Bay :=
  let y := { y with assigned := y.assigned.filter (fun a => !(a.job == job && a.rank == rank)) }
  if y.seated && y.job == job && y.rankid == rank then { y with phase := .idle, ep := {} } else y

/-- The state without a rank whose image has left the device. -/
def State.forget (s : State) (job : Word) (rank : BitVec 20) : State :=
  { s with
    parked := s.parked.filter (fun p => !p.is job rank)
    snapshots := s.snapshots.filter (fun z => !z.is job rank)
    bays := s.bays.map (fun y => y.forget job rank) }

/-- A field of an image's context as it comes. -/
def imageField (i : ImageData) (off n : Nat) : Nat := leNat ((i.ctx.drop off).take n)

/-- Whether an image may come to the device: of a rank that is not here, of a step whose barrier has completed, each page and the
context to a place of its own. -/
def State.mayBring (s : State) (job : Word) (rank : BitVec 20) (dst : Nat) (i : ImageData) : Bool :=
  !(s.ranksHere job).contains rank && (s.snapshotOf job rank).isNone
    && i.pages.all (fun p => p.2.length == 65536 && s.pageFits p.1.toNat 65536)
    && disjoint (i.pages.map (fun p => (p.1.toNat, 65536)) ++ (if i.launch then [] else [(dst, i.ctx.length)]))
    && (i.launch || (imageField i 2 1 == 2 && imageField i 4 4 == rank.toNat && imageField i 8 8 == job.toNat && imageField i 0x50 8 == i.ctx.length
      && tierOf dst ≤ 1 && dst % 4096 == 0 && s.locOk dst i.ctx.length && !s.meetsHdm dst i.ctx.length && s.roomFor dst
      && s.jobs.all (fun j => j.id != job || imageField i 0x10 8 ≤ j.milestone.toNat)))

/-- The state with the image of a rank that has come to the device (R362, R367): its pages and its context, its snapshot, and what
the horizon check sees of the landings before its safe point (log entry 88). An initial snapshot waits for the launch record
that it holds. Of a transfer that stops, the image holds the pages that have come: it leaves kind 0 (R365). -/
def State.bring (s : State) (job : Word) (rank : BitVec 20) (dst : Nat) (i : ImageData) (stopped : Bool) : State :=
  let s := i.pages.foldl (fun s p => s.homeWrite p.1.toNat p.2) (if i.launch then s else s.homeWrite (dst + 2) [0])
  if stopped then s else
  let g : Gen := { launch := i.launch, ctx := i.ctx, pages := i.pages.map (fun p => (p.1.toNat / 65536, p.2)) }
  let s : State := { s with snapshots := { job := job, rank := rank, gens := (g, {}), restored := true } :: s.snapshots }
  if i.launch then s
  else
    let p : Parked := { job := job, rank := rank, live := false, filler := false, nrank := 0,
                        ptbase := BitVec.ofNat 64 (imageField i 0x28 8), save := BitVec.ofNat 64 dst,
                        steps := BitVec.ofNat 64 (imageField i 0x10 8), held := false, ep := {} }
    { s.copyArea dst i.ctx with
      parked := p :: s.parked
      horizons := { job := job, rank := rank, t := imageField i 0x18 8, hits := i.hits } :: s.horizons }

/-- CONVOY_TRANSFER (R364, R365, R367; R22, R362). -/
def execConvoyTransfer (m : ConvoyMove) (s : State) : Host.Outcome State Fault Refusal :=
  match m with
  | .move src dst frames stopped =>
    let fs := frames.map (fun f => f.toNat)
    if s.movable src.toNat dst.toNat fs stopped then .next (s.moveImage src.toNat dst.toNat fs stopped)
    else .refused (.notEnabled "CONVOY_TRANSFER")
  | .restore job rank stopped =>
    match s.snapshotOf job rank, s.saveOf job rank with
    | some z, some save =>
      if (z.current.pages.isEmpty && z.current.ctx.isEmpty) || s.turning z || !s.roomToRestore z then .refused (.notEnabled "CONVOY_TRANSFER")
      else .next (s.restoreSnapshot z save.toNat stopped)
    | _, _ => .refused (.notEnabled "CONVOY_TRANSFER")
  | .depart job rank port =>
    if s.linkUp port && s.mayDepart job rank then .next (s.forget job rank) else .refused (.notEnabled "CONVOY_TRANSFER")
  | .bring job rank port dst image stopped =>
    if s.linkUp port && s.mayBring job rank dst.toNat image then .next (s.bring job rank dst.toNat image stopped)
    else .refused (.notEnabled "CONVOY_TRANSFER")

end Sys2Proof.Machine
end

