-- ==== Sys2Proof/Machine/Contexts.lean ====
section
/-! DEFINITION. Contexts as bytes: the context save area's layout (14_contexts Tables 1 to 4, R358, R359), writing it from a
bay and reading it back, saves (R355, R356, R372) and the steps that write images. -/

namespace Sys2Proof.Machine

/-! ## The endpoints of ranks that are switched out (12_endpoints R336 to R340) -/

/-- An endpoint prepared for the rerun of a step (R340): its own submissions are no longer open. -/
def Endpoint.rerun (e : Endpoint) : Endpoint :=
  { e with
    replay := max e.replay e.next
    next := 0
    opened := 0
    colls := e.colls.map (fun (c : Coll) => { c with present := [], opened := false }) }

/-! ## Records -/

/-- `n` zero bytes. -/
def zeros (n : Nat) : List Byte := List.replicate n 0

/-- A word as 8 bytes. -/
def wordBytes (v : Word) : List Byte := leBytes 8 v.toNat

/-- The IDLE of the word at offset `off` of stream `k`'s body in function `fn`: of the word that is staged, or, where the function is
not, of the word of the code object; 0 where it cannot be read. -/
def State.idleAt (s : State) (b x k : Nat) (fn : BitVec 24) (off : Nat) : Nat :=
  match s.fetchAt (.tile b x k) fn off with
  | some w => (headOf w).idle.toNat
  | none => match s.icoSection b 1, s.firstWord b fn.toNat k with
    | some c, some w => ((s.stageWord b (c.va + 16 * (w + off))).map (fun w => (headOf w).idle.toNat)).getD 0
    | _, _ => 0

/-- The tc a stream's next word is due at, at least `m` (14_contexts R357). -/
def State.dueTc (s : State) (b x k m : Nat) : Nat :=
  match ((s.tile b x).strm k).next with
  | .halted => m
  | .word fn off base => max m (base + s.idleAt b x k fn off)

/-- The next-word field of a stream record (Table 3). -/
def Strm.nextField (u : Strm) : Nat :=
  match u.next with
  | .halted => 2 ^ 64 - 1
  | .word fn off _ => off % 2 ^ 32 + fn.toNat * 2 ^ 32

/-- The bytes 0x180 to 0x1BF of a stream record: CT's nest, SX's modes. -/
def Tile.unitBytes (t : Tile) (k : Nat) : List Byte :=
  let u := t.strm k
  if k = 0 then u.nest.t.flatMap (fun (c : BitVec 32) => leBytes 4 c.toNat)
    ++ leBytes 1 u.nest.n.toNat ++ leBytes 1 u.nest.perm.toNat ++ leBytes 1 u.nest.ab.toNat ++ zeros 5
    ++ wordBytes u.nest.j ++ zeros 32
  else if k = 6 then leBytes 8 (t.oq.rate.toNat + (if t.oq.strict then 2 ^ 8 else 0)) ++ zeros 56
  else zeros 64

/-- The predicates of a stream as 16 bits. -/
def Strm.pBits (u : Strm) : Nat :=
  (List.range 16).foldl (fun n i => if i = 0 || nth u.p i false then n + 2 ^ i else n) 0

/-- A stream record (Table 3) of a rank that stands after tc `t`. -/
def State.strmRecord (s : State) (b x t k : Nat) : List Byte :=
  let u := (s.tile b x).strm k
  (List.range 32).flatMap (fun i => wordBytes (if i = 0 then 0 else nth u.a i 0))
    ++ u.b.toList.flatMap wordBytes ++ leBytes 8 u.pBits
    ++ [0x02, 0x03, 0x04].flatMap (fun n => wordBytes (s.crRead b x k 0 0 n))
    ++ leBytes 8 u.nextField ++ leBytes 8 (s.dueTc b x k (t + 1)) ++ leBytes 8 u.draw.toNat
    ++ leBytes 8 ((if u.ftm then 1 else 0) + u.evsel.toNat * 2 ^ 8 + u.bcsel.toNat * 2 ^ 16 + u.pmsel.toNat * 2 ^ 24)
    ++ (s.tile b x).unitBytes k ++ zeros 64

/-- The 288 metadata bits of a row in 36 bytes (06_vector_rows R164). -/
def RowMeta.field (m : RowMeta) : Nat :=
  m.tag.toNat + (if m.poison then 2 ^ 5 else 0) + (if m.zs then 2 ^ 6 else 0) + m.anchor.toNat * 2 ^ 16
    + m.scales.toNat * 2 ^ 32

/-- A tag as a restore writes it: 26 to 31 become NONE (04_numbers R100; log entry 74). -/
def restoredTag (v : Nat) : BitVec 5 := if v % 32 ≤ 25 then BitVec.ofNat 5 v else 0

/-- Row metadata from its bits; what the format does not use is written as zero (R100). -/
def rowMetaOf (v : Nat) : RowMeta :=
  let tag := restoredTag v
  { tag := tag, poison := v / 2 ^ 5 % 2 == 1, zs := v / 2 ^ 6 % 2 == 1,
    anchor := if tag = 23 then BitVec.ofNat 16 (v / 2 ^ 16) else 0, scales := usedScales tag (BitVec.ofNat 256 (v / 2 ^ 32)) }

/-- A row record (Table 2). -/
def rowRecord (r : Row) : List Byte := leBytes 512 r.data.toNat ++ leBytes 36 r.md.field ++ zeros 28

/-- A plane record (Table 2; 07_accumulators R205: tag in [4:0], scales from bit 6 up). -/
def planeRecord (p : Plane) : List Byte :=
  leBytes 4096 p.data.toNat ++ leBytes 64 (p.tag.toNat + p.scales.toNat * 2 ^ 6)

/-- A mutex word (13_counters Table 2), with armed and tok zero. -/
def Mtx.field (m : Mtx) : Nat := (if m.held then 1 else 0) + m.owner.toNat * 2

/-- A semaphore word. -/
def Sem.field (m : Sem) : Nat := m.count.toNat + (if m.ovf then 2 ^ 32 else 0)

/-- A tile record (Table 2); `img` is a step-boundary image, whose event counters are zero (R355). -/
def State.tileRecord (s : State) (b t : Nat) (img : Bool) (x : Nat) : List Byte :=
  let w := s.tile b x
  (List.range 9).flatMap (s.strmRecord b x t)
    ++ [2, 3, 4, 5].flatMap (fun k => (w.strm k).q.toList.zipIdx.flatMap (fun (q, i) =>
        leBytes 64 (if i = 0 then (BitVec.allOnes 512).toNat else q.toNat)))
    ++ w.rows.toList.flatMap rowRecord ++ w.planes.toList.flatMap planeRecord
    ++ w.sems.toList.flatMap (fun m => leBytes 8 m.field) ++ w.mtxs.toList.flatMap (fun m => leBytes 8 m.field)
    ++ w.ev.toList.flatMap (fun v => leBytes 4 (if img then 0 else v.toNat))
    ++ w.evwin.toList.flatMap (fun v => leBytes 4 v.toNat) ++ w.evthr.toList.flatMap (fun v => leBytes 4 v.toNat)

/-- The metadata word of a slot (08_memories Table 2). -/
def Slot.field (x : Slot) : Nat :=
  x.seq.toNat + (if x.fresh then 2 ^ 16 else 0) + (if x.poison then 2 ^ 17 else 0) + (if x.zs then 2 ^ 18 else 0)
    + x.tag.toNat * 2 ^ 19 + x.anchor.toNat * 2 ^ 24

/-- A slot record (R358): data, scales, metadata, location. -/
def slotRecord (x key : Nat) (v : Slot) : List Byte :=
  leBytes 512 v.data.toNat ++ leBytes 32 v.scales.toNat ++ leBytes 8 v.field
    ++ leBytes 8 (x + key / 1024 * 2 ^ 7 + key % 1024 * 2 ^ 10) ++ zeros 16

/-- The slots of a bay whose metadata is nonzero, by tile, group and slot. -/
def Bay.savedSlots (y : Bay) : List (Nat × Nat × Slot) :=
  (List.range 128).flatMap (fun x => ((y.tile x).slots.filter (fun e => e.2.field != 0)).map (fun e => (x, e.1, e.2)))

/-- The slot section (R358). -/
def Bay.slotSection (y : Bay) : List Byte :=
  leBytes 8 y.savedSlots.length ++ zeros 8 ++ y.savedSlots.flatMap (fun e => slotRecord e.1 e.2.1 e.2.2)

/-- The endpoint's 8 bytes (12_endpoints Table 1). -/
def Endpoint.field (e : Endpoint) : Nat := e.next % 2 ^ 10 + e.replay % 2 ^ 10 * 2 ^ 10 + e.opened % 2 ^ 7 * 2 ^ 20

/-- An endpoint record (R359): head, and payload padded to 32 bytes. -/
def endpointRecord (kind : Nat) (id : BitVec 10) (lo hi : Nat) (payload : List Byte) : List Byte :=
  leBytes 1 kind ++ zeros 1 ++ leBytes 2 id.toNat ++ leBytes 4 lo ++ leBytes 4 hi ++ zeros 4
    ++ leBytes 8 payload.length ++ zeros 8 ++ payload ++ zeros ((32 - payload.length % 32) % 32)

/-- Bits as bytes, the first in bit 0 of the first byte. -/
def bitBytes (bs : List Bool) : List Byte :=
  leBytes ((bs.length + 7) / 8) (bs.foldr (fun b n => 2 * n + (if b then 1 else 0)) 0)

/-- The payload of an open collective: its submission record and two bits for each window byte, presence and poison. -/
def Coll.payload (c : Coll) : List Byte :=
  c.record.flatMap wordBytes
    ++ leBytes ((c.size + 3) / 4) (c.present.foldl (fun n e => n + (if e.2.2 then 3 else 1) * 4 ^ e.1) 0)

/-- The window of an open collective as the state of its participant's leaf: bytes, presence, poison. -/
def Coll.window (c : Coll) : List (Byte × Bool × Bool) :=
  (List.range c.size).map (fun i => match find c.present i with
    | some (v, bad) => (v, true, bad)
    | none => (0, false, false))

/-- The payload of a value (log entry 23): its bytes, a presence bitmap for each of its two children, and a bitmap of its
poison marks. A leaf has its presence in the first bitmap. -/
def valuePayload (bytes : List Byte) (lower upper bad : List Bool) : List Byte :=
  bytes ++ bitBytes lower ++ bitBytes upper ++ bitBytes bad

/-- A value in a record of a kind over [lo, hi), with every byte of its children present, or none (log entry 23). -/
def childRecord (v : ChildValue) (kind lo hi : Nat) (lower upper : Bool) : List Byte :=
  let all (b : Bool) : List Bool := v.bytes.map (fun _ => b)
  endpointRecord kind v.id lo hi (valuePayload v.bytes (all lower) (all upper) v.bad)

/-- The kind of a value's record: a result held for others, a node the rank owns, a value it retains (R338; log entry 23). -/
def valueKind (d : Descriptor) (pos : Nat) (v : ChildValue) : Nat :=
  if v.lo = 0 ∧ d.span ≤ v.hi then 4 else if v.lo = pos ∧ v.lo + 2 ≤ v.hi then 2 else 3

/-- Whether the rank at position `pos` owns the node over [pos, hi) and has not formed it. -/
def Endpoint.unformed (e : Endpoint) (d : Descriptor) (pos : Nat) (id : BitVec 10) (hi : Nat) : Bool :=
  isNode d.span pos hi && (e.value id pos hi).isNone

/-- Whether a value is the arrived upper child of a node that the rank at position `pos` owns and has not formed. -/
def Endpoint.awaits (e : Endpoint) (d : Descriptor) (pos : Nat) (v : ChildValue) : Bool :=
  v.lo == pos + (v.hi - v.lo) && e.unformed d pos v.id v.hi

/-- Whether a value is the lower child of such a node, which waits for its upper one. -/
def Endpoint.waitsOn (e : Endpoint) (d : Descriptor) (pos : Nat) (v : ChildValue) : Bool :=
  v.lo == pos && !v.bytes.isEmpty && v.hi < d.n && e.unformed d pos v.id (2 * v.hi - pos)

/-- The records of a value: itself; for the upper child that has arrived for a node still to be formed, that node, kind 2, with this
child alone present; and for a lower child whose node waits for the upper one, that node too, with this child present (log entry 23;
18_programs_fabric Table 4). -/
def Endpoint.valueRecords (e : Endpoint) (d : Descriptor) (pos : Nat) (v : ChildValue) : List (List Byte) :=
  if e.awaits d pos v then [childRecord v 2 pos v.hi false true]
  else childRecord v (valueKind d pos v) v.lo v.hi true true
    :: (if e.waitsOn d pos v then [childRecord v 2 pos (2 * v.hi - pos) true false] else [])

/-- Whether a contribution is there in part. -/
def Coll.partial_ (c : Coll) : Bool := !c.present.isEmpty && c.present.length < c.size

/-- The records of an open collective: its submission; and, while its contribution is there in part, those bytes, as the state of
the node over its own position and the next, or, with no such node, as a value over its own (log entry 23). -/
def Coll.records (c : Coll) (d : Descriptor) (pos : Nat) : List (List Byte) :=
  let w := c.window
  let bytes := valuePayload (w.map Prod.fst) (w.map (fun x => x.2.1)) (w.map (fun _ => false)) (w.map (fun x => x.2.2))
  endpointRecord 1 c.id 0 0 c.payload
    :: (if !c.partial_ || d.silent pos then []
        else if isNode d.span pos (pos + 2) && pos + 1 < d.n then [endpointRecord 2 c.id pos (pos + 2) bytes]
        else [endpointRecord 3 c.id pos (pos + 1) bytes])

/-- The open collectives of an endpoint. -/
def Endpoint.openColls (e : Endpoint) : List Coll := e.colls.filter (fun (c : Coll) => c.opened && !c.delivered)

/-- The records of an endpoint: its open collectives, and its values, each by the descriptor of the submission it was formed under
(12_endpoints R410). -/
def State.endpointRecords (s : State) (y : Bay) : List (List Byte) :=
  let pos (d : Descriptor) : Nat := (d.position y.rankid.toNat).getD 0
  let ofColl (c : Coll) : List (List Byte) :=
    let d := s.descriptor y c.desc
    c.records d (pos d)
  let ofValue (v : ChildValue) : List (List Byte) :=
    let d := s.descriptor y v.desc.toNat
    y.ep.valueRecords d (pos d) v
  y.ep.openColls.flatMap ofColl ++ y.ep.values.flatMap ofValue

/-- The endpoint section (R359); a step-boundary image holds no record. -/
def State.endpointSection (s : State) (b : Nat) (img : Bool) : List Byte :=
  if img then leBytes 8 0 ++ leBytes 8 0
  else
    let rs := s.endpointRecords (s.bay b)
    leBytes 8 (s.bay b).ep.field ++ leBytes 8 rs.length ++ rs.flatten

/-- A region binding entry (11_tables Table 4). -/
def Region.record (r : Region) : List Byte := wordBytes r.sync ++ wordBytes r.base ++ wordBytes r.size ++ zeros 8

/-- Bytes of a tile record. -/
def tileRecordSize : Nat := 0x28400

/-- The whole context of a bay's rank after safe point `t` (Table 1), as a safe-point context or a step-boundary image. -/
def State.contextBytes (s : State) (b t : Nat) (img : Bool) : List Byte :=
  let y := s.bay b
  let slotOff := 0x1000 + 128 * tileRecordSize
  let slots := y.slotSection
  let ends := s.endpointSection b img
  leBytes 2 1 ++ leBytes 1 (if img then 2 else 1) ++ leBytes 1 (if y.detm then 1 else 0)
    ++ leBytes 4 y.rankid.toNat ++ wordBytes y.job
    ++ wordBytes (if img then y.curStep + 1 else y.curStep) ++ leBytes 8 t
    ++ wordBytes (y.cluster 0).carve ++ wordBytes y.ptbase ++ leBytes 8 y.evact.toNat ++ leBytes 1 y.nstage.toNat ++ zeros 7
    ++ leBytes 8 slotOff ++ leBytes 8 (slotOff + slots.length) ++ leBytes 8 (slotOff + slots.length + ends.length) ++ zeros 8
    ++ y.regions.toList.flatMap Region.record
    ++ (List.range 8).flatMap (fun c => (y.cluster c).bc.toList.flatMap (fun v => wordBytes (if img then 0 else v)))
    ++ zeros 928 ++ (List.range 128).flatMap (s.tileRecord b t img) ++ slots ++ ends

/-! ## Saves (R355, R356, R372) -/

/-- Whether the steward has removed the rank's fault records and SYSC records (R356; 15_traps R383). -/
def Bay.recordsGone (y : Bay) : Bool :=
  y.sysq.isEmpty && (List.range 8).all (fun c => (y.cluster c).faults.isEmpty)

/-- Whether every open collective of the step has delivered to the rank. -/
def Bay.collsDone (y : Bay) : Bool := y.ep.openColls.isEmpty

/-- Whether a row, slot or plane of a bay holds an uncorrectable soft error. -/
def Bay.softError (y : Bay) : Bool :=
  (List.range 128).any (fun x => (y.tile x).soft || (y.tile x).slots.any (fun e => e.2.bad))

/-- The bay's context written to its save area; a soft error leaves kind 0 there and is reported as cause 0x142. -/
def State.writeContext (s : State) (b t : Nat) (img : Bool) : State :=
  let y := s.bay b
  if y.softError then (s.homeWrite (y.save.toNat + 2) [0]).notify 8 0x142
  else s.homeWrite y.save.toNat (s.contextBytes b t img)

/-- A bay that its rank has left. -/
def Bay.vacate (y : Bay) (p : Phase) : Bay :=
  { y with
    phase := p
    freeze := none
    released := none
    views := []
    entering := []
    safeAt := none
    clusters := y.clusters.map (fun c => { c with code := [], prefetch := [] })
    tiles := y.tiles.map (fun t => { t with strms := t.strms.map (fun u => { u with next := .halted, xfer := none }) }) }

/-- The state with the rank of bay `b` kept apart from it (12_endpoints R317, R338): with `live`, its endpoint goes on. -/
def State.park (s : State) (b : Nat) (live : Bool) : State :=
  let y := s.bay b
  let p : Parked := { job := y.job, rank := y.rankid, live := live, done := y.phase == .ended, filler := y.filler, nrank := y.nrank, ptbase := y.ptbase,
                      save := y.save, steps := y.curStep, held := y.atStep && !y.lost, ep := y.ep }
  { s with parked := p :: s.parked.filter (fun e => !e.is y.job y.rankid) }

/-- What the horizon check will see of the landings before the safe point of bay `b`'s rank, kept for its resume (02_execution
R36; log entry 19). -/
def State.keepHorizon (s : State) (b : Nat) : State :=
  let y := s.bay b
  let t := y.tclk - 1
  let hits := (List.range 128).flatMap (fun x =>
    ((y.tile x).hist.filter (fun h => t ≤ h.1 + 6)).map (fun h => (x, h.1, h.2)))
  { s with horizons := { job := y.job, rank := y.rankid, t := t, hits := hits }
                        :: s.horizons.filter (fun h => !(h.job == y.job && h.rank == y.rankid && h.t == t)) }

/-- Bay `b` before a save (R355, R356): the clearing of its safe point has landed, and its line caches are drained. -/
def State.settleBay (s : State) (b : Nat) : State :=
  let y := s.bay b
  (((s.setBay b (y.turnStreams y.tclk)).landBay b y.tclk).drainLines b).keepHorizon b

/-- The rank that the steward of bay `b` runs once the rank on it has been saved: after a filler, the production rank whose
collectives are ready (02_execution R57); at a step safe point, the choice of R56; else any (DESIGN CHOICE, log entry 88). -/
def State.successor (s : State) (b : Nat) : Option (Word × BitVec 20) :=
  let y := s.bay b
  match y.displaced with
  | some (job, rank, ids) =>
    if y.filler && s.resultReady job rank ids then some (job, rank)
    else if y.stepSafe && !y.lost then (s.nextRank b).map Candidate.name else none
  | none => if y.stepSafe && !y.lost then (s.nextRank b).map Candidate.name else none

/-- CONTEXT_SAVE (R356): a bay whose request was taken, with its tokens complete and its records removed, drains its line
caches, and its rank leaves it: off a step boundary with a safe-point context; at one with its image, which must be written,
or have met a soft error, so that the rank runs the step again (R372). The steward then knows which rank the bay runs next. A save area that runs past the
end of its tier is no obstacle: what lies beyond is stored as any other location is (DESIGN CHOICE, log entry 102). -/
def execContextSave (b : BitVec 3) (s : State) : Host.Outcome State Fault Refusal :=
  let y := s.bay b.toNat
  match y.phase with
  | .taken .debug => .refused (.notEnabled "CONTEXT_SAVE")
  | .taken r =>
    if y.tokensDone && y.recordsGone && (y.imaged || y.lost || !y.atStep) && s.roomFor y.save.toNat then
      let s := s.settleBay b.toNat
      let s := if y.stepSafe then s else s.writeContext b.toNat (y.tclk - 1) false
      let s := s.park b.toNat false
      .next (s.setBay b.toNat { (s.bay b.toNat).vacate (.saved r) with chosen := s.successor b.toNat })
    else .refused (.notEnabled "CONTEXT_SAVE")
  | _ => .refused (.notEnabled "CONTEXT_SAVE")

/-- A job with a rank's image of the step in progress written to both copies. -/
def Job.image (j : Job) (rank : BitVec 20) : Job :=
  if j.imaged.contains rank then j else { j with imaged := j.imaged ++ [rank] }

/-- The state after the first part of an image's save: the image in the save area, and in the local copy of the snapshot, in the
generation that is not current (R355, R366). A soft error leaves kind 0 and reports 0x142; the rank's arrival is undone until
its rerun (R372). -/
def State.writeImage (s : State) (b : Nat) : State :=
  let s := s.settleBay b
  let y := s.bay b
  let s := s.writeContext b (y.tclk - 1) true
  if y.softError then
    { s.setBay b { s.bay b with lost := true } with
      jobs := s.jobs.map (fun j => if j.id = y.job then { j with arrived := j.arrived.filter (· != y.rankid) } else j) }
  else s.writeSnapshot y.job y.rankid y.ptbase (s.contextBytes b (y.tclk - 1) true)

/-- The state after the second part: the mirror holds the image too (R366), which the barrier waits for (02_execution R26). -/
def State.mirrorImage (s : State) (b : Nat) : State :=
  let y := s.bay b
  { s.setBay b { y with imaged := true } with
    jobs := s.jobs.map (fun j => if j.id = y.job then j.image y.rankid else j) }

/-- Whether the local copy of a rank's snapshot holds the image of the step in progress. -/
def State.imageWritten (s : State) (job : Word) (rank : BitVec 20) : Bool :=
  (s.snapshotOf job rank).any (fun z => z.written)

/-- STEP_IMAGE_SAVE (R355, R356, R366): a rank parked or stopped at the step safe point, whose tokens are complete, whose
collectives have delivered and whose records are removed, has its step-boundary image written to the local copy of its
snapshot, then to the mirror, over a link that is up (R371; 19_boundaries R395). -/
def execStepImageSave (b : BitVec 3) (s : State) : Host.Outcome State Fault Refusal :=
  let y := s.bay b.toNat
  let stands := y.isParked || y.phase == .taken .switch
  let written := s.imageWritten y.job y.rankid
  if y.atStep && stands && y.tokensDone && y.collsDone && y.recordsGone && !y.imaged && !y.lost
      && (!written || s.linkUp s.mirrorPort) then
    .next (if written then s.mirrorImage b.toNat else s.writeImage b.toNat)
  else .refused (.notEnabled "STEP_IMAGE_SAVE")

/-! ## Step barriers (02_execution R26, R27; 13_counters R343) -/

/-- Whether every rank of a job that this device has, or that a bay of it is assigned, has arrived at the step barrier. -/
def State.allArrived (s : State) (j : Job) : Bool :=
  (s.ranksHere j.id).all j.arrived.contains
    && s.bays.toList.all (fun y => y.assigned.all (fun a => a.job != j.id || j.arrived.contains a.rank))

/-- Whether a barrier may complete (R26): all V ranks have arrived, every one of this device and `others` elsewhere, and each
that arrived here has had its image written to both copies, which followed the delivery of its collectives. -/
def State.barrierReady (s : State) (j : Job) (others : Nat) : Bool :=
  !j.arrived.isEmpty && j.change.isNone && s.allArrived j && j.arrived.length + others == j.v
    && j.arrived.all (fun r => j.imaged.contains r)

/-- The state with a job's milestone to be changed at fabric time `at_` (R343). -/
def State.setChange (s : State) (job : Word) (at_ : Nat) : State :=
  { s with jobs := s.jobs.map (fun k => if k.id = job then { k with change := some at_ } else k) }

/-- The state with a late milestone change counted (13_counters R343, Table 7): performance counters are the bays', so event 45
counts on each bay that has a rank of the job. DESIGN CHOICE (log entry 86). -/
def State.countLate (s : State) (job : Word) : State :=
  { s with bays := s.bays.map (fun y => if y.seated && y.job == job then y.count 45 else y) }

/-- STEP_BARRIER_COMPLETE (R26, R343): the completion reaches this device, stamped with the switch's fabric time, over a link that
is up when ranks elsewhere take part (14_contexts R371). The milestone changes 5,000 ns later; on a receipt later than that, and
while fabric time is not aligned (19_boundaries R396), it changes at once and performance event 45 counts. -/
def execStepBarrierComplete (c : Completion) (s : State) : Host.Outcome State Fault Refusal :=
  match s.jobs.find? (fun j => j.id == c.job) with
  | none => .refused (.notEnabled "STEP_BARRIER_COMPLETE")
  | some j =>
    if s.barrierReady j c.others && (c.others == 0 || s.linkUp c.port) then
      .next (if c.stamp.toNat + 5000 < s.ftime.toNat || !s.power.aligned then (s.setChange c.job s.ftime.toNat).countLate c.job
        else s.setChange c.job (c.stamp.toNat + 5000))
    else .refused (.notEnabled "STEP_BARRIER_COMPLETE")

/-- A cluster at a step boundary: barrier counters zero, prefetch queue empty (13_counters R348; 10_queues R288). -/
def Cluster.boundary (c : Cluster) : Cluster := { c with bc := Vector.replicate 16 0, prefetch := [] }

/-- The functions a stream of the bay executes, or will after its transfer. -/
def Bay.inUse (y : Bay) : List (BitVec 24) :=
  (y.tiles.toList.flatMap (fun t => t.strms.toList.flatMap (fun u =>
    (match u.next with
      | .word fn _ _ => [fn]
      | .halted => []) ++ (u.xfer.map (fun e => e.fn)).toList))).dedup

/-- A bay whose rank's step barrier has completed. -/
def Bay.boundary (y : Bay) : Bay :=
  let use := y.inUse
  let cluster (c : Cluster) : Cluster :=
    { c.boundary with code := c.code.map (fun f => { f with entered := use.contains f.fn }) }
  { y with
    completed := y.completed + 1
    imaged := false
    ep := {}
    clusters := y.clusters.map cluster
    tiles := y.tiles.map (fun t => { t with ev := Vector.replicate 16 0 }) }

/-- A rank kept apart from any bay at a step boundary: the step it waited to complete is one more of its completed steps (02_execution
R56). One that has ended or been replaced is forgotten with its step. -/
def Parked.boundary (p : Parked) : Parked := { p with steps := if p.held then p.steps + 1 else p.steps, held := false, ep := {} }

/-- The state with the milestone of a job raised (R27, R343): every rank of the job passes its step boundary, its endpoint is
emptied (12_endpoints R337), and the snapshot just written becomes current (14_contexts R366). -/
def State.passBoundary (s : State) (job : Word) : State :=
  { s with
    jobs := s.jobs.map (fun k => if k.id = job then
      { k with milestone := k.milestone + 1, arrived := [], imaged := [], change := none } else k)
    bays := s.bays.map (fun y =>
      if y.job ≠ job then y
      else if y.occupied then y.boundary
      else if y.seated then { y with ep := {} } else y)
    parked := (s.parked.filter (fun p => p.job != job || !p.live)).map (fun p => if p.job = job then p.boundary else p)
    snapshots := s.snapshots.map (fun z => if z.job = job then z.flip else z) }

/-- Whether the milestone of a job is due to change (R343). -/
def State.changeDue (s : State) (j : Job) : Bool :=
  match j.change with
  | some c => c ≤ s.ftime.toNat
  | none => false

/-- MILESTONE_CHANGE (R27, R343): in the first wc in which fabric time has reached that of the change (log entry 13). -/
def execMilestoneChange (job : BitVec 64) (s : State) : Host.Outcome State Fault Refusal :=
  match s.jobs.find? (fun j => j.id == job) with
  | none => .refused (.notEnabled "MILESTONE_CHANGE")
  | some j => if s.changeDue j then .next (s.passBoundary job) else .refused (.notEnabled "MILESTONE_CHANGE")

end Sys2Proof.Machine
end

