-- ==== Sys2Proof/Machine/Launch.lean ====
section
/-! DEFINITION. Launch: the launch record and its refusals (02_execution R29; 11_tables R293, R294), the launch state (R30),
restoring a context (14_contexts R360, R361), the endpoint's rerun (12_endpoints R340) and the muster (R31). -/

namespace Sys2Proof.Machine

/-! ## The launch record (11_tables Table 1) -/

/-- A launch record. -/
structure LaunchRecord where
  s : Nat
  detm : Bool
  resume : Bool
  filler : Bool
  rank : Nat
  v : Nat
  entry : Nat
  seed : Word
  ico : Word
  ptbase : Word
  carve : Word
  regions : Nat
  save : Word
  step : Word
  job : Word

/-- The launch record posted to a bay, as it was read at the post (R293). -/
def Bay.record (y : Bay) : LaunchRecord :=
  let f (off n : Nat) : Nat := leNat ((y.posted.toList.drop off).take n)
  { s := f 0x02 1, detm := f 0x03 1 % 2 == 1, resume := f 0x03 1 / 2 % 2 == 1, filler := f 0x03 1 / 4 % 2 == 1,
    rank := f 0x04 4 % 2 ^ 20, v := f 0x08 4 % 2 ^ 21, entry := f 0x0C 4, seed := BitVec.ofNat 64 (f 0x10 8),
    ico := BitVec.ofNat 64 (f 0x18 8), ptbase := BitVec.ofNat 64 (f 0x20 8), carve := BitVec.ofNat 64 (f 0x28 8),
    regions := f 0x30 8, save := BitVec.ofNat 64 (f 0x38 8), step := BitVec.ofNat 64 (f 0x40 8),
    job := BitVec.ofNat 64 (f 0x48 8) }

/-- Whether a ptbase value names a tier other than HBM or LPDDR or has a reserved bit set (R29). Bits [12:0], which 11_tables R295
calls zero and not reserved, count among them (DESIGN CHOICE: R29 leaves it open; log entry 71). -/
def badPtbase (v : Word) : Bool := v.extractLsb' 0 13 != 0#13 || v.extractLsb' 53 11 != 0#11

/-- The state with the bay's code object being that of a record, for reading its header. -/
def State.withIco (s : State) (b : Nat) (ico : Word) : State := s.setBay b { s.bay b with ico := ico }

/-- Whether a bay refuses a record whatever it resumes (R29); `s` has the record's code object. -/
def State.refuses (s : State) (b : Nat) (r : LaunchRecord) : Bool :=
  !([1, 2, 4, 8] : List Nat).contains r.s || r.v ≤ r.rank || r.v = 0 || 2 ^ 20 < r.v || s.icoLe b 0x14 4 ≤ r.entry
    || s.icoLe b 0x0C 1 != r.s || s.icoLe b 0x08 4 != r.v || badCarve r.carve
    || (match s.icoSection b 8 with
      | some c => s.icoLe b c.off 8 != r.carve.toNat
      | none => false)
    || badPtbase r.ptbase

/-! ## The launch state (R30, Table 2) -/

/-- A stream at launch. -/
def Strm.atLaunch : Strm := { p := Vector.ofFn (fun i : Fin 16 => i.val == 0), q := Vector.ofFn (fun i : Fin 16 =>
  if i.val = 0 then BitVec.allOnes 512 else 0) }

/-- A token at launch and after a restore: complete and empty. -/
def Token.atLaunch : Token := { empty := true }

/-- A tile at launch; the windows and thresholds of its event counters are the steward's (13_counters R351). -/
def Tile.atLaunch (t : Tile) : Tile :=
  { strms := Vector.replicate 9 Strm.atLaunch, toks := Vector.replicate 64 Token.atLaunch, evwin := t.evwin, evthr := t.evthr }

/-- The region binding table at a physical location (11_tables Table 4). The spec refuses no image: one at a location that does not
exist or with uncorrectable data is read as memory reads, and low bits that R299 calls zero stay as they are. DESIGN CHOICE (log
entry 83). -/
def State.readRegions (s : State) (loc : Nat) : Vector Region 64 :=
  Vector.ofFn (fun i : Fin 64 =>
    let f (off : Nat) : Word := BitVec.ofNat 64 (s.homeLe (loc + 32 * i.val + off) 8).1
    { sync := f 0, base := f 8, size := f 16 })

/-! ## Reading a context (14_contexts Tables 1 to 4) -/

/-- `n` bytes of the context save area at `off`, as a number. -/
def State.saved (s : State) (save : Word) (off n : Nat) : Nat := (s.homeLe (save.toNat + off) n).1

/-- Whether bytes of the area are all zero. -/
def State.zeroAt (s : State) (save : Word) (off n : Nat) : Bool := s.saved save off n == 0

/-- Whether a field of the area has bits of `mask` only. -/
def State.within (s : State) (save : Word) (off n mask : Nat) : Bool := s.saved save off n &&& mask == s.saved save off n

/-- The reserved bits of stream record `k` at `r` (14_contexts Table 3; 05_control_registers Table 4; 13_counters R349). -/
def State.strmZero (s : State) (save : Word) (k r : Nat) : Bool :=
  s.zeroAt save (r + 0x142) 6 && s.within save (r + 0x148) 8 (2 ^ 40 - 1) && s.within save (r + 0x150) 8 (2 ^ 36 - 1)
    && s.within save (r + 0x158) 8 0x7F070F
    && (s.saved save (r + 0x160) 8 == 2 ^ 64 - 1 || s.zeroAt save (r + 0x167) 1) && s.zeroAt save (r + 0x177) 1
    && s.within save (r + 0x178) 8 0x3F0F0F01
    && (if k = 0 then s.zeroAt save (r + 0x193) 5 && s.zeroAt save (r + 0x1A0) 32
        else if k = 6 then s.within save (r + 0x180) 64 0x11F
        else s.zeroAt save (r + 0x180) 64)
    && s.zeroAt save (r + 0x1C0) 64

/-- The reserved bits of a tile record at `at_` (14_contexts Table 2; 06_vector_rows R164; 07_accumulators R205;
13_counters Table 2). -/
def State.tileZero (s : State) (save : Word) (at_ : Nat) : Bool :=
  (List.range 9).all (fun k => s.strmZero save k (at_ + 0x200 * k))
    && (List.range 256).all (fun n =>
      s.within save (at_ + 0x2200 + 0x240 * n + 0x200) 2 0x7F && s.zeroAt save (at_ + 0x2200 + 0x240 * n + 0x224) 28)
    && (List.range 2).all (fun n =>
      s.within save (at_ + 0x26200 + 0x1040 * n + 0x1000) 64 (2 ^ 262 - 1 - 2 ^ 5))
    && (List.range 16).all (fun n => s.within save (at_ + 0x28280 + 8 * n) 8 (2 ^ 33 - 1))
    && (List.range 8).all (fun n => s.within save (at_ + 0x28300 + 8 * n) 8 0x1F)

/-- The reserved bits of the slot section (14_contexts R358; 08_memories Table 2). -/
def State.slotsZero (s : State) (save : Word) : Bool :=
  let at_ := s.saved save 0x40 8
  s.zeroAt save (at_ + 8) 8 && (List.range (s.saved save at_ 8)).all (fun i =>
    let r := at_ + 16 + 0x240 * i
    s.within save (r + 0x220) 8 (2 ^ 40 - 1) && s.within save (r + 0x228) 8 (2 ^ 20 - 1) && s.zeroAt save (r + 0x230) 16)

/-- The reserved bits of the endpoint section (14_contexts R359; 12_endpoints Table 1). -/
def State.endsZero (s : State) (save : Word) : Bool :=
  let at_ := s.saved save 0x48 8
  s.within save at_ 8 (2 ^ 27 - 1) && ((List.range (s.saved save (at_ + 8) 8)).foldl (fun (v : Bool × Nat) _ =>
    let r := v.2
    (v.1 && s.zeroAt save (r + 1) 1 && s.zeroAt save (r + 12) 4 && s.zeroAt save (r + 24) 8,
     r + 32 + (s.saved save (r + 16) 8 + 31) / 32 * 32)) (true, at_ + 16)).1

/-- The reserved fields of the area, all of them zero (R360). -/
def State.reservedZero (s : State) (save : Word) : Bool :=
  s.saved save 3 1 < 2 && s.saved save 4 4 < 2 ^ 20 && s.within save 0x30 8 (2 ^ 33 - 1) && s.zeroAt save 0x39 7
    && s.zeroAt save 0x58 8 && (List.range 64).all (fun i => s.zeroAt save (0x60 + 32 * i + 24) 8) && s.zeroAt save 0xC60 928
    && (List.range 128).all (fun x => s.tileZero save (0x1000 + x * tileRecordSize)) && s.slotsZero save
    && s.endsZero save

/-- Whether a bay refuses to restore from its record's area (R360); a context, or a page of its image, outside HBM is cold (R364;
log entry 65). -/
def State.refusesRestore (s : State) (r : LaunchRecord) : Bool :=
  let f (off n : Nat) : Nat := s.saved r.save off n
  !s.locOk r.save.toNat (f 0x50 8) || tierOf r.save.toNat != 0 || (s.homeRead r.save.toNat (f 0x50 8)).2
    || f 0 2 != 1 || f 2 1 == 0 || 2 < f 2 1 || !s.reservedZero r.save
    || f 4 4 != r.rank || f 0x38 1 != r.s || (f 3 1 == 1) != r.detm || f 0x20 8 != r.carve.toNat
    || f 0x28 8 != r.ptbase.toNat || f 0x10 8 != r.step.toNat || (s.imagePages r.ptbase).any (fun p => tierOf p.loc != 0)

/-- Stream `k` of a tile record at `at_`. -/
def State.loadStrm (s : State) (save : Word) (at_ k : Nat) : Strm :=
  let r := at_ + 0x200 * k
  let f (off n : Nat) : Nat := s.saved save (r + off) n
  let nx := f 0x160 8
  let md := f 0x178 8
  let u : Strm := {
    a := Vector.ofFn (fun i : Fin 32 => BitVec.ofNat 64 (f (8 * i.val) 8))
    b := Vector.ofFn (fun i : Fin 8 => BitVec.ofNat 64 (f (0x100 + 8 * i.val) 8))
    p := Vector.ofFn (fun i : Fin 16 => f 0x140 8 / 2 ^ i.val % 2 == 1)
    q := if 2 ≤ k ∧ k ≤ 5 then Vector.ofFn (fun i : Fin 16 =>
        BitVec.ofNat 512 (s.saved save (at_ + 0x1200 + 1024 * (k - 2) + 64 * i.val) 64))
      else Vector.replicate 16 0
    next := if nx = 2 ^ 64 - 1 then .halted else .word (BitVec.ofNat 24 (nx / 2 ^ 32)) (nx % 2 ^ 32) (f 0x168 8)
    draw := BitVec.ofNat 56 (f 0x170 8)
    ftm := md % 2 == 1
    evsel := BitVec.ofNat 4 (md / 2 ^ 8)
    bcsel := BitVec.ofNat 4 (md / 2 ^ 16)
    pmsel := BitVec.ofNat 6 (md / 2 ^ 24)
    nest := if k = 0 then
        { t := (List.range 4).map (fun i => BitVec.ofNat 32 (f (0x180 + 4 * i) 4)), n := BitVec.ofNat 8 (f 0x190 1),
          perm := BitVec.ofNat 8 (f 0x191 1), ab := BitVec.ofNat 8 (f 0x192 1), j := BitVec.ofNat 64 (f 0x198 8) }
      else {} }
  (List.range 3).foldl (fun u i => u.setCr (2 + i) (BitVec.ofNat 64 (f (0x148 + 8 * i) 8))) u

/-- A stream whose saved due tc is the issue tc of its next word: its base is that tc less the word's IDLE (R361). -/
def State.rebase (s : State) (c : CoreId) (u : Strm) : Strm :=
  match u.next with
  | .halted => u
  | .word fn off base => match s.fetchAt c fn off with
    | some w => { u with next := .word fn off (base - (headOf w).idle.toNat) }
    | none => u

/-- Tile `x` of the area in place of `t`, whose logical identity it keeps; its slots come from the slot section. -/
def State.loadTile (s : State) (t : Tile) (save : Word) (x : Nat) : Tile :=
  let at_ := 0x1000 + x * tileRecordSize
  let f (off n : Nat) : Nat := s.saved save (at_ + off) n
  { lidx := t.lidx, stage := t.stage, clid := t.clid, tid := t.tid
    strms := Vector.ofFn (fun k : Fin 9 => s.loadStrm save at_ k.val)
    rows := Vector.ofFn (fun n : Fin 256 =>
      { data := BitVec.ofNat 4096 (f (0x2200 + 0x240 * n.val) 512), md := rowMetaOf (f (0x2200 + 0x240 * n.val + 0x200) 36) })
    planes := Vector.ofFn (fun n : Fin 2 =>
      let p := 0x26200 + 0x1040 * n.val
      let m := f (p + 0x1000) 64
      { data := BitVec.ofNat 32768 (f p 4096), tag := restoredTag m,
        scales := if blockScaled (restoredTag m) then BitVec.ofNat 256 (m / 2 ^ 6) else 0 })
    toks := Vector.replicate 64 Token.atLaunch
    sems := Vector.ofFn (fun n : Fin 16 =>
      let v := f (0x28280 + 8 * n.val) 8
      { count := BitVec.ofNat 32 v, ovf := v / 2 ^ 32 % 2 == 1 })
    mtxs := Vector.ofFn (fun n : Fin 8 =>
      let v := f (0x28300 + 8 * n.val) 8
      { held := v % 2 == 1, owner := BitVec.ofNat 4 (v / 2) })
    ev := Vector.ofFn (fun n : Fin 16 => BitVec.ofNat 32 (f (0x28340 + 4 * n.val) 4))
    evwin := Vector.ofFn (fun n : Fin 16 => BitVec.ofNat 32 (f (0x28380 + 4 * n.val) 4))
    evthr := Vector.ofFn (fun n : Fin 16 => BitVec.ofNat 32 (f (0x283C0 + 4 * n.val) 4))
    oq := { rate := BitVec.ofNat 5 (f (0x200 * 6 + 0x180) 8), strict := f (0x200 * 6 + 0x180) 8 / 2 ^ 8 % 2 == 1 } }

/-- Record `i` of the slot section: tile, key of the slot, slot (R358); the data of a NONE slot is zero (08_memories R228), and
the scale record of a block-scaled one is whole (04_numbers R107; log entry 76). -/
def State.loadSlot (s : State) (save : Word) (at_ : Nat) : Nat × Nat × Slot :=
  let f (off n : Nat) : Nat := s.saved save (at_ + off) n
  let m := f 0x220 8
  let l := f 0x228 8
  let tag := restoredTag (m / 2 ^ 19)
  (l % 2 ^ 7, l / 2 ^ 7 % 2 ^ 3 * 1024 + l / 2 ^ 10 % 2 ^ 10,
   { data := if tag = 0 then 0 else BitVec.ofNat 4096 (f 0 512), scales := if blockScaled tag then BitVec.ofNat 256 (f 0x200 32) else 0, seq := BitVec.ofNat 16 m,
     fresh := m / 2 ^ 16 % 2 == 1, poison := m / 2 ^ 17 % 2 == 1, zs := m / 2 ^ 18 % 2 == 1,
     tag := tag, anchor := if tag = 23 then BitVec.ofNat 16 (m / 2 ^ 24) else 0 })

/-- The slot section of an area. -/
def State.loadSlots (s : State) (save : Word) : List (Nat × Nat × Slot) :=
  let at_ := s.saved save 0x40 8
  (List.range (s.saved save at_ 8)).map (fun i => s.loadSlot save (at_ + 16 + 0x240 * i))

/-! ## The endpoint section (14_contexts R359) -/

/-- A record of the endpoint section: its head, and its payload. -/
structure EndRecord where
  kind : Nat
  id : BitVec 10
  lo : Nat
  hi : Nat
  payload : List Byte

/-- The records of an endpoint section from `at_` on. -/
def State.endRecords (s : State) (save : Word) : Nat → Nat → List EndRecord
  | 0, _ => []
  | n + 1, at_ =>
    let f (off k : Nat) : Nat := s.saved save (at_ + off) k
    let len := f 16 8
    { kind := f 0 1, id := BitVec.ofNat 10 (f 2 2), lo := f 4 4, hi := f 8 4,
      payload := (s.homeRead (save.toNat + at_ + 32) len).1 }
      :: s.endRecords save n (at_ + 32 + (len + 31) / 32 * 32)

/-- Bit `i` of some bytes. -/
def byteBit (bs : List Byte) (i : Nat) : Bool := (bs.getD (i / 8) 0).getLsbD (i % 8)

/-- The number of value bytes in a payload of `len` bytes in all, three bitmaps of them included (log entry 23): 11 bytes for
each 8, and for what is left over as many and three more. -/
def valueSize (len : Nat) : Nat := 8 * ((len - 4) / 11) + (if len < 4 then 0 else (len - 4) % 11 + 1)

/-- The value bytes of a payload of kinds 2 to 4. -/
def EndRecord.bytes (r : EndRecord) : List Byte := r.payload.take (valueSize r.payload.length)

/-- Bitmap `i` of such a payload. -/
def EndRecord.bits (r : EndRecord) (i : Nat) : List Bool :=
  let n := r.bytes.length
  (List.range n).map (byteBit (r.payload.drop (n + i * ((n + 7) / 8))))

/-- Whether a record holds the bytes of an open collective whose contribution is there in part: those of its lower child, and not
all of them. -/
def EndRecord.isWindow (r : EndRecord) : Bool :=
  r.kind != 1 && (r.bits 0).contains true && (r.bits 0).contains false

/-- Whether a record is a node that holds its lower child and waits for the upper one; the child has a record of its own. -/
def EndRecord.waits (r : EndRecord) : Bool := r.kind == 2 && (r.bits 0).contains true && !(r.bits 1).contains true

/-- The bytes of an open collective's contribution among the records: of its part, or of its leaf. -/
def contributionBytes (rs : List EndRecord) (id : BitVec 10) : List Byte :=
  (((rs.find? (fun w => w.id == id && w.isWindow)).orElse
    (fun _ => rs.find? (fun w => w.id == id && w.kind != 1 && w.hi == w.lo + 1))).map EndRecord.bytes).getD []

/-- An open collective as its records hold it; what they have no place for comes from the endpoint `e` kept on the device (log
entry 23). -/
def EndRecord.coll (r : EndRecord) (rs : List EndRecord) (e : Endpoint) : Coll :=
  let old := (e.colls.find? (fun c => c.id == r.id)).getD
    { id := r.id, record := [], landed := 0, addr := 0, tile := 0, present := [], opened := true, delivered := false }
  let marks := r.payload.drop 64
  let bytes := contributionBytes rs r.id
  let record := (List.range 8).map (fun i => BitVec.ofNat 64 (leNat ((r.payload.drop (8 * i)).take 8)))
  { old with
    record := record
    present := ((List.range ((record[2]?).getD 0).toNat).filter (fun i => byteBit marks (2 * i))).map
      (fun i => (i, bytes.getD i 0, byteBit marks (2 * i + 1)))
    opened := true
    delivered := false }

/-- Whether a record of kind 2 is a node still to be formed, of which the upper child alone has arrived; without a byte to mark,
the endpoint kept on the device tells (log entry 23). -/
def EndRecord.isChild (r : EndRecord) (e : Endpoint) : Bool :=
  r.kind == 2 && (if r.bytes.isEmpty then (e.value r.id r.lo r.hi).isNone else !(r.bits 0).contains true)

/-- A value as its record holds it; its descriptor index and events, and the mark of a refused child, come from the endpoint kept
on the device. -/
def EndRecord.value (r : EndRecord) (e : Endpoint) : ChildValue :=
  let lo := if r.isChild e then (r.lo + r.hi) / 2 else r.lo
  let old := (e.value r.id lo r.hi).getD { id := r.id, lo := lo, hi := r.hi, desc := 0, bytes := [], bad := [], evs := [] }
  { old with bytes := r.bytes, bad := if r.bytes.isEmpty then old.bad else r.bits 2 }

/-- The endpoint that an area of kind 1 holds, of which `e` is what the device kept. -/
def State.loadEndpoint (s : State) (save : Word) (e : Endpoint) : Endpoint :=
  let at_ := s.saved save 0x48 8
  let v := s.saved save at_ 8
  let rs := s.endRecords save (s.saved save (at_ + 8) 8) (at_ + 16)
  { next := v % 2 ^ 10
    replay := v / 2 ^ 10 % 2 ^ 10
    opened := v / 2 ^ 20 % 2 ^ 7
    colls := e.colls.filter (fun c => !c.opened || c.delivered) ++ (rs.filter (fun r => r.kind == 1)).map (fun r => r.coll rs e)
    values := (rs.filter (fun r => r.kind != 1 && !r.isWindow && !r.waits)).map (fun r => r.value e) }

/-- The landings before safe point `t` that the horizon check of a resumed rank sees (02_execution R36). -/
def State.horizonOf (s : State) (job : Word) (rank : BitVec 20) (t : Nat) : List (Nat × Nat × Target) :=
  ((s.horizons.find? (fun h => h.job == job && h.rank == rank && h.t == t)).map Horizon.hits).getD []

/-- Tile `x` with what the horizon check sees. -/
def Tile.withHorizon (t : Tile) (x : Nat) (hits : List (Nat × Nat × Target)) : Tile :=
  { t with hist := (hits.filter (fun h => h.1 == x)).map Prod.snd }

/-- A bay with a context loaded (R360). -/
def State.loadContext (s : State) (y : Bay) (save : Word) : Bay :=
  let hits := s.horizonOf y.job y.rankid (s.saved save 0x18 8)
  let y := { y with
    tclk := s.saved save 0x18 8 + 1
    evact := BitVec.ofNat 33 (s.saved save 0x30 8)
    regions := s.readRegions (save.toNat + 0x60)
    clusters := Vector.ofFn (fun c : Fin 8 =>
      { y.clusters[c.val] with bc := Vector.ofFn (fun j : Fin 16 =>
          BitVec.ofNat 64 (s.saved save (0x860 + 128 * c.val + 8 * j.val) 8)) })
    tiles := Vector.ofFn (fun x : Fin 128 => (s.loadTile (y.tile x.val) save x.val).withHorizon x.val hits) }
  (s.loadSlots save).foldl (fun (y : Bay) e => y.setTile e.1 ((y.tile e.1).setSlot (e.2.1 / 1024) (e.2.1 % 1024) e.2.2)) y

/-! ## The post of a launch record -/

/-- Tile `x` with the registers that its place in the bay gives it at the post (R294; 05_control_registers Table 5). -/
def Tile.placed (t : Tile) (y : Bay) (x : Nat) : Tile :=
  { t with lidx := BitVec.ofNat 7 (y.lidxOf x), stage := BitVec.ofNat 3 (y.stageOf x), clid := BitVec.ofNat 3 (x / 16),
           tid := BitVec.ofNat 4 x }

/-- The bay with what every post sets (11_tables R294, 05_control_registers Table 5); requests that no safe point has taken stay
pending (02_execution R44; 15_traps R376; Bay.carry). What its line caches still hold of a rank that a trap stopped is discarded: the spec says
of no write-back there (DESIGN CHOICE, log entry 97). -/
def Bay.setRecord (y : Bay) (r : LaunchRecord) (fns : Nat) : Bay :=
  let z : Bay := { y with
    post := 2
    phase := .posted
    rankid := BitVec.ofNat 20 r.rank
    nrank := BitVec.ofNat 21 r.v
    nstage := BitVec.ofNat 4 r.s
    detm := r.detm
    seed := r.seed
    ptbase := r.ptbase
    ico := r.ico
    entry := BitVec.ofNat 24 r.entry
    fnCount := fns
    save := r.save
    step := r.step
    job := r.job
    filler := r.filler
    arrived := 0
    completed := 0
    tclk := 0
    wclk := 0
    resume := r.resume
    stepSafe := false
    lost := false
    displaced := if r.filler then y.displaced else none
    chosen := none
    assigned := { job := r.job, rank := BitVec.ofNat 20 r.rank, filler := r.filler }
      :: y.assigned.filter (fun a => !(a.job == r.job && a.rank == BitVec.ofNat 20 r.rank))
    freeze := none
    released := none
    views := []
    entering := []
    safeAt := none
    imaged := false
    entryFault := false
    traps := []
    joints := []
    issued := []
    ep := {}
    clusters := y.clusters.map (fun c => { c with carve := r.carve, carveNext := none, bc := Vector.replicate 16 0, prefetch := [], code := [] })
    tiles := y.tiles.map Tile.atLaunch }
  z.mapTiles (fun x t => t.placed z x)

/-- Whether no rank of a job that the device has can go on: each has ended, on its bay or before another took that bay. -/
def State.jobOver (s : State) (job : Word) : Bool :=
  (s.ranksHere job).all (fun r => match s.bayOf job r with
    | some b => (s.bay b).phase == .ended
    | none => (s.parkedOf job r).all Parked.done)

/-- The jobs of the device with the record's: its milestone at launch is the step number the steward set to it. It takes the
first free slot of the descriptor store; once eight jobs have one, those whose ranks on the device have all ended lose theirs
(12_endpoints R318; log entry 17). -/
def State.addJob (s : State) (r : LaunchRecord) : List Job :=
  if s.jobs.any (fun j => j.id == r.job) then s.jobs
  else
    let js := if s.jobs.length < 8 then s.jobs else s.jobs.filter (fun j => !s.jobOver j.id)
    let slot := ((List.range 8).find? (fun i => !js.any (fun j => j.slot == i))).getD 8
    js ++ [{ id := r.job, slot := slot, v := r.v, milestone := r.step, arrived := [], imaged := [], change := none }]

/-- The endpoint of a rank that is launched or restored: that of a safe-point context as its area holds it (14_contexts R360),
and otherwise the one the device still has, prepared for a rerun (12_endpoints R340). -/
def State.endpointFor (s : State) (r : LaunchRecord) : Endpoint :=
  let e := s.endpointOf r.job (BitVec.ofNat 20 r.rank)
  if r.resume ∧ s.saved r.save 2 1 = 1 then s.loadEndpoint r.save (e.getD {}) else (e.map Endpoint.rerun).getD {}

/-- The functions a bay stages before its muster: the entry function, or those its restored streams execute. -/
def Bay.firstFns (y : Bay) (resume : Bool) : List (BitVec 24) := if resume then y.inUse else [y.entry]

/-- Some functions staged, and whether one of them could not be (11_tables R298). -/
def State.stageFirst (s : State) (b : Nat) (fns : List (BitVec 24)) : State :=
  fns.foldl (fun s fn => match s.stageAll b fn with
    | some s => s.setBay b ((s.bay b).enterFn fn)
    | none => s.setBay b { s.bay b with entryFault := true }) s

/-- The successors of the functions a cluster has staged, staged while they fit (R29). -/
def State.stageSuccessors (s : State) (b : Nat) : State :=
  (List.range 8).foldl (fun s cl =>
    ((((s.bay b).cluster cl).code.flatMap (fun (f : Fn) => f.succ)).dedup).foldl (fun s fn => (s.stage b cl fn).getD s) s) s

/-- The state before bay `b` takes a rank: the endpoint of the rank it had goes on by itself (12_endpoints R317, R334), and a
bay on which the new rank stopped or ended no longer has it. -/
def State.unseat (s : State) (b : Nat) (job : Word) (rank : BitVec 20) : State :=
  let y := s.bay b
  let s := if y.seated ∧ !(y.job == job && y.rankid == rank) then s.park b true else s
  (List.range 8).foldl (fun s o =>
    let z := s.bay o
    let z := if o = b then z else { z with assigned := z.assigned.filter (fun a => !(a.job == job && a.rank == rank)) }
    s.setBay o (if o ≠ b ∧ z.seated ∧ z.job = job ∧ z.rankid = rank then { z with phase := .idle, ep := {} } else z)) s

/-- The state with the snapshot that an accepted record begins with: the initial one (14_contexts R368), or, for a rank resumed
from an image that has none here, that image (R367); whatever stands in it, the rank runs on from there. -/
def State.snapshotFor (s : State) (r : LaunchRecord) (record : List Byte) : State :=
  let rank : BitVec 20 := BitVec.ofNat 20 r.rank
  let s := if !r.resume then s.firstSnapshot r.job rank r.ptbase true record
    else if s.saved r.save 2 1 = 2 then
      s.firstSnapshot r.job rank r.ptbase false (s.homeRead r.save.toNat (s.saved r.save 0x50 8)).1
    else s
  { s with snapshots := s.snapshots.map (fun z => if z.is r.job rank then { z with restored := false } else z) }

/-- Bay `z`, which has just taken a rank in place of what `y` had, with the requests that are still pending: a rank that resumes on the
bay it left keeps the tc they were latched for in its own timetable; for any other they count as latched at its muster's tc
(02_execution R44; log entry 38). -/
def Bay.carry (y z : Bay) : Bay :=
  let same := z.resume && z.tclk == y.tclk && y.job == z.job && y.rankid == z.rankid && match y.phase with
    | .saved _ => true
    | _ => false
  if same then z else { z with requests := z.requests.map (fun r => (r.1, z.tclk)) }

/-- The state after a record is accepted: the launch state or the context, the snapshot of a rank that has none (14_contexts R367,
R368), and the first code staged. -/
def State.accept (s : State) (b : Nat) (r : LaunchRecord) : State :=
  let rank : BitVec 20 := BitVec.ofNat 20 r.rank
  let ep := s.endpointFor r
  let fns := (s.withIco b r.ico).icoLe b 0x14 4
  let jobs := s.addJob r
  let s := s.unseat b r.job rank
  let y := (s.bay b).setRecord r fns
  let y := { y with regions := s.readRegions r.regions, ep := ep }
  let y := (s.bay b).carry (if r.resume then s.loadContext y r.save else y)
  let s := { s.setBay b y with jobs := jobs, parked := s.parked.filter (fun p => !p.is r.job rank) }
  let s := s.snapshotFor r y.posted.toList
  let s := (s.stageFirst b (y.firstFns r.resume)).stageSuccessors b
  s.setBay b { s.bay b with phase := .staged }

/-- Whether a bay can take a rank: none is on it, or the one whose step a reported trap ended (15_traps R377). -/
def Bay.free (y : Bay) : Bool :=
  match y.phase with
  | .idle | .saved _ | .ended => true
  | .trapped => y.traps.isEmpty
  | _ => false

/-- Whether a rank has arrived at a step barrier of its job that is not complete (02_execution R26, R56). -/
def State.waitsAtBarrier (s : State) (job : Word) (rank : BitVec 20) : Bool :=
  s.jobs.any (fun j => j.id == job && j.arrived.contains rank) || (s.parkedOf job rank).any (fun p => p.held)

/-- Whether the rank that a post would take off bay `b`, put back to its image there, leaves no more warm contexts than the device may
keep (01_device R22). -/
def State.roomToUnseat (s : State) (b : Nat) (job : Word) (rank : BitVec 20) : Bool :=
  let y := s.bay b
  !y.seated || (y.job == job && y.rankid == rank) || !s.standsBack y.job y.rankid || tierOf y.save.toNat != 0
    || s.warm < (if (s.parkedOf job rank).any s.isWarm then 57 else 56)

/-- Whether the steward of bay `b` posts the record of a rank: one that runs on no other bay, does not wait at an incomplete step
barrier (R26, R56) and leaves room for the one it replaces; the one it has chosen to run next, while that rank may (R56, R57; DESIGN
CHOICE, log entry 88), else any. -/
def State.mayPost (s : State) (b : Nat) (r : LaunchRecord) : Bool :=
  let rank : BitVec 20 := BitVec.ofNat 20 r.rank
  !s.waitsAtBarrier r.job rank && !s.bays.toList.any (fun y => y.engaged && y.job == r.job && y.rankid == rank)
    && s.roomToUnseat b r.job rank && match (s.bay b).chosen with
  | none => true
  | some c => (r.job, BitVec.ofNat 20 r.rank) == c || !(s.eligible b).any (fun k => k.name == c)

/-- LAUNCH_RECORD_POST (R29, R360): the bay reads the record posted to it, refuses it with cause 0x148 and no other change
than the post word, or accepts it. -/
def execLaunchRecordPost (b : BitVec 3) (s : State) : Host.Outcome State Fault Refusal :=
  let y := s.bay b.toNat
  let r := y.record
  if y.post = 1 ∧ y.service ∧ !y.drained ∧ y.free ∧ s.mayPost b.toNat r then
    if (s.withIco b.toNat r.ico).refuses b.toNat r || (r.resume && s.refusesRestore r) then
      .next ((s.setBay b.toNat { y with post := 3 }).notify b.toNat 0x148)
    else .next (s.accept b.toNat r)
  else .refused (.notEnabled "LAUNCH_RECORD_POST")

/-! ## The muster (R31, R361) -/

/-- A stream at the muster of a launched rank: its first word counts from tc 0; without a body it has halted (R32, R89). -/
def Bay.firstNext (y : Bay) (x k : Nat) : Next :=
  match y.body x y.entry k with
  | some _ => .word y.entry 0 0
  | none => .halted

/-- A bay whose muster is now: wclk, frzc and the performance counters are zero (13_counters R342, R353). -/
def Bay.clearClocks (y : Bay) : Bay := { y with
  clocked := true, wclk := 0, frzc := 0, pm := Vector.replicate 48 0, phase := .running, freeze := none }

/-- The bay at the muster with its streams ready, those of a restored rank at their saved due tc. -/
def State.readyStreams (s : State) (b : Nat) : Bay :=
  let y := (s.bay b).clearClocks
  y.mapTiles (fun x t => t.mapStrms (fun k u =>
    if y.resume then s.rebase (.tile b x k) u else { u with next := y.firstNext x k }))

/-- The bay at its muster: the protected cycles whose tc t − 6 lies before it are sampled now (R36). -/
def Bay.sampleMuster (y : Bay) : Bay :=
  { y with views := (List.range 6).map (fun i => (y.tclk + i, y.look y.tclk)) }

/-- Cause 0x087 at the muster when the entry function could not be staged (11_tables R298): against CT of the first tile
(log entry 26). -/
def Bay.entryTrap (y : Bay) (ea : Word) : Bay :=
  { y with
    phase := .trapped
    trapTc := y.tclk
    traps := [{ cause := 0x087, tile := 0, strm := 0, addr := codeAddr 0 (y.entry.toNat, 0), ea := ea }] }

/-- A bay that a debugger held at its new muster: its protected cycles are sampled there again, and a WAITA's watcher begins anew
(R36; 09_ordering R271). -/
def Bay.resumed (y : Bay) : Bay :=
  ((y.mapTiles (fun _ t => { t with watch := none })).clearClocks).sampleMuster

/-- Whether the mirror of a rank's first snapshot can be written before its first muster, or has been (14_contexts R368, R371). -/
def State.mirrorReady (s : State) (y : Bay) : Bool :=
  s.linkUp s.mirrorPort || (s.snapshotOf y.job y.rankid).all (fun z => z.mirrored)

/-- The state with the first snapshot of a bay's rank in its mirror too. -/
def State.mirrorFirst (s : State) (y : Bay) : State :=
  { s with snapshots := s.snapshots.map (fun z => if z.is y.job y.rankid then { z with mirrored := true } else z) }

/-- MUSTER (R31): a staged bay begins its first tc, 0 or the one after its saved safe point, once both copies hold the rank's first
snapshot (14_contexts R368); a bay a debugger holds resumes, unless another request is due at its safe point (R44, R46). -/
def execMuster (b : BitVec 3) (s : State) : Host.Outcome State Fault Refusal :=
  let y := s.bay b.toNat
  match y.phase with
  | .staged =>
    let y := s.readyStreams b.toNat
    let ready := s.mirrorReady y
    let s := s.mirrorFirst y
    if !ready then .refused (.notEnabled "MUSTER")
    else if y.entryFault then .next (s.setBay b.toNat (y.entryTrap (s.stageFault b.toNat y.entry.toNat)))
    else .next (s.setBay b.toNat y.sampleMuster)
  | .taken .debug =>
    if y.tokensDone then
      let z := y.take (y.timely (y.tclk - 1))
      if z.phase = .taken .debug then
        .next ((s.drainLines b.toNat).setBay b.toNat ((s.drainLines b.toNat).bay b.toNat).resumed)
      else .next (s.setBay b.toNat z)
    else .refused (.notEnabled "MUSTER")
  | _ => .refused (.notEnabled "MUSTER")

/-! ## Ends (R51, 15_traps R376, R377) -/

/-- RANK_END (R51): every stream has halted, its earlier writes have landed and every token has completed; cause 0x147 goes to the bay's steward, and a
pending request is answered (R43). -/
def execRankEnd (b : BitVec 3) (s : State) : Host.Outcome State Fault Refusal :=
  let y := s.bay b.toNat
  let halted := (List.range 128).all (fun x => (List.range 9).all (fun k => y.halted x k))
  let landed := (List.range 128).all (fun x => (y.tile x).pend.isEmpty && (y.tile x).mx.isEmpty)
  if y.phase = .running ∧ halted ∧ landed ∧ y.tokensDone then
    let s := s.drainLines b.toNat
    .next ((s.setBay b.toNat { (s.bay b.toNat).vacate .ended with requests := [] }).notify b.toNat 0x147)
  else .refused (.notEnabled "RANK_END")

/-- Whether trap `r` is reported before trap `q` (R49). -/
def TrapRec.before (r q : TrapRec) : Bool :=
  r.cause.toNat < q.cause.toNat
    || (r.cause == q.cause && (r.tile < q.tile || (r.tile == q.tile && r.strm < q.strm)))

/-- The primary trap of some (R49). -/
def primary : List TrapRec → Option TrapRec
  | [] => none
  | r :: rs => match primary rs with
    | none => some r
    | some q => some (if q.before r then q else r)

/-- The classes of causes among some traps (15_traps Table 2). -/
def classMask (ts : List TrapRec) : Nat :=
  (List.range 8).foldl (fun n c => if ts.any (fun r => r.cause.toNat / 64 == c) then n + 2 ^ c else n) 0

/-- The 64 bytes of a trap record (15_traps Table 2); its address is zero but for causes 0x080 to 0x088. -/
def State.trapBytes (s : State) (b : Nat) (r : TrapRec) : List Byte :=
  let y := s.bay b
  let ea := if 0x080 ≤ r.cause.toNat ∧ r.cause.toNat ≤ 0x088 then r.ea else 0
  wordBytes r.addr ++ wordBytes ea ++ leBytes 2 r.cause.toNat
    ++ leBytes 2 (r.tile % 16 + r.tile / 16 % 8 * 2 ^ 4 + r.strm % 16 * 2 ^ 7) ++ leBytes 4 y.rankid.toNat
    ++ leBytes 8 y.trapTc ++ wordBytes (s.crRead b 0 0 0 0 0x0C) ++ leBytes 2 (min y.traps.length 0xFFFF) ++ zeros 6
    ++ leBytes 1 (classMask y.traps) ++ zeros 15

/-- TRAP_REPORT (R376, R377): once the tokens have completed and the earlier writes have landed, the trap record goes to the
page at the bay steward's tvbase, and the trap becomes pending there. -/
def execTrapReport (b : BitVec 3) (s : State) : Host.Outcome State Fault Refusal :=
  let y := s.bay b.toNat
  let landed := (List.range 128).all (fun x => (y.tile x).pend.isEmpty && (y.tile x).mx.isEmpty)
  match y.phase, primary y.traps with
  | .trapped, some r =>
    if y.tokensDone && landed then
      let w := s.steward b.toNat
      let s := s.setSteward b.toNat { w with ram := writeBytes w.ram (w.tvbase.toNat + 0xC40) (s.trapBytes b.toNat r) }
      .next ((s.setBay b.toNat { y with traps := [] }).notify b.toNat r.cause true b.toNat)
    else .refused (.notEnabled "TRAP_REPORT")
  | _, _ => .refused (.notEnabled "TRAP_REPORT")

/-! ## Requests (R44) -/

/-- A request latched at bay `b`: before the tc in progress when the bay is between two tc, else after it. -/
def State.latch (s : State) (b : Nat) (r : Request) : State :=
  let y := s.bay b
  let mid := match s.turn with
    | .issue c _ => c == b
    | .bayClose c => c == b
    | _ => false
  s.setBay b { y with requests := y.requests ++ [(r, if mid then y.tclk + 1 else y.tclk)] }

/-- PREEMPTION_REQUEST (R44). -/
def execPreemptionRequest (b : BitVec 3) (s : State) : Host.Outcome State Fault Refusal := .next (s.latch b.toNat .preempt)

/-- DEBUG_STOP (R44). -/
def execDebugStop (b : BitVec 3) (s : State) : Host.Outcome State Fault Refusal := .next (s.latch b.toNat .debug)

/-- RANK_SWITCH (R44, R56): a bay steward's request. At a step safe point it makes one only when another assigned production rank
may run next; else the rank stays parked. -/
def execRankSwitch (b : BitVec 3) (s : State) : Host.Outcome State Fault Refusal :=
  let y := s.bay b.toNat
  if y.isParked && y.atStep && !y.lost && (s.nextRank b.toNat).isNone then .refused (.notEnabled "RANK_SWITCH")
  else .next (s.latch b.toNat .switch)

/-- The collectives on which the HOLDs of a frozen bay wait. -/
def Bay.awaited (y : Bay) : List Nat :=
  (y.freeze.toList.flatMap Freeze.failing).filterMap (fun w => match w.cond with
    | .col id => some id.toNat
    | _ => none)

/-- FILLER_SWITCH_IN (R57): a production rank parked on a collective hold for longer than fillthr wc leaves its bay, which keeps
in mind whom the filler displaces, and what that rank waits for. -/
def execFillerSwitchIn (b : BitVec 3) (s : State) : Host.Outcome State Fault Refusal :=
  let y := s.bay b.toNat
  match y.freeze with
  | some f =>
    if y.phase == .running && y.isParked && f.kinds.contains 25 && !y.filler && y.fillthr.toNat < s.wc - f.since then
      .next (s.setBay b.toNat ({ y with phase := .taken .switch, displaced := some (y.job, y.rankid, y.awaited) }.count 46))
    else .refused (.notEnabled "FILLER_SWITCH_IN")
  | none => .refused (.notEnabled "FILLER_SWITCH_IN")

/-- A bay that runs a filler, with a switch requested once the displaced rank can go on (R57). -/
def State.recall (s : State) (b : Nat) : State :=
  let y := s.bay b
  match y.displaced with
  | none => s
  | some (job, rank, ids) =>
    if y.phase == .running && y.filler && !y.requests.any (fun r => r.1 == .switch) && s.resultReady job rank ids then
      s.latch b .switch
    else s

/-- BAY_DRAIN (14_contexts R370): no further rank, and the one on the bay is switched out at its next safe point. -/
def execBayDrain (b : BitVec 3) (s : State) : Host.Outcome State Fault Refusal :=
  let s := s.setBay b.toNat { s.bay b.toNat with drained := true }
  .next (if (s.bay b.toNat).engaged then s.latch b.toNat .drain else s)

/-- BAY_SELF_TEST (R370; 01_device R21, R23, R24; 19_boundaries R405): a bay without a rank, which the configuration image
enables, returns to service, or is taken out of it with cause 0x14F. While it is drained new voltage and frequency tables may
be loaded into it. -/
def execBaySelfTest (b : BitVec 3) (t : SelfTest) (s : State) : Host.Outcome State Fault Refusal :=
  let y := s.bay b.toNat
  if s.phase = .service ∧ y.free ∧ s.settings.enabled.getLsbD b.toNat ∧ (t.tables.isNone ∨ y.drained) then
    let y := { y with tables := t.tables.getD y.tables }
    if t.pass then .next (s.setBay b.toNat { y with service := true, drained := false })
    else .next ((s.setBay b.toNat { y with service := false }).notify 8 0x14F)
  else .refused (.notEnabled "BAY_SELF_TEST")

end Sys2Proof.Machine
end

