-- ==== Sys2Proof/Machine/StewardSteps.lean ====
section
/-! DEFINITION. Steward cores in time: their landings, the asynchronous deliveries they take (15_traps R378, R379), and the
steps of their windows and registers (R382, R383; 05_control_registers R162; 08_memories R225, R226; 19_boundaries R393,
R398). -/

namespace Sys2Proof.Machine

/-! ## Landings on a steward core -/

/-- A steward core after a write of one of its own control registers (15_traps Table 3; 11_tables Table 7; 05_control_registers
Tables 4 and 19): reserved bits stay zero. -/
def Steward.setCr (w : Steward) (num : Nat) (v : Word) : Steward :=
  match num with
  | 0x40 => { w with tvbase := v &&& 0x0000FFFFFFFFF000 }
  | 0x41 => { w with ecause := v.extractLsb' 0 18 &&& 0x301FF }
  | 0x42 => { w with epc := v &&& 0x0000FFFFFFFFFFF0 }
  | 0x43 => { w with estat := v.extractLsb' 0 3 }
  | 0x44 => { w with escr := v }
  | 0x45 => { w with starg := v.extractLsb' 0 18 }
  | _ => { w with strm := w.strm.setCr num v }

/-- A carve value written to cluster `cl` of bay `b` (08_memories R225, R226): at once while no rank runs on the bay, else
at its next safe point; until then a read of carve gives the old value (DESIGN CHOICE, log entry 107). -/
def State.writeCarve (s : State) (b cl : Nat) (v : Word) : State :=
  let y := s.bay b
  let s := s.setBay b (y.setCluster cl { y.cluster cl with carveNext := some v })
  if y.occupied then s else s.applyCarve b cl

/-- The rw and priv-rw fields of control register `num` of the target (b, x, j, k) written by a steward (R162). -/
def State.writeTarget (s : State) (b x j k num : Nat) (v : Word) : State :=
  let y := s.bay b
  let t := y.tile x
  match num with
  | 0x14 => s.setTile b x { t with evwin := put t.evwin k (v.extractLsb' 0 32) }
  | 0x15 => s.setTile b x { t with evthr := put t.evthr k (v.extractLsb' 0 32) }
  | 0x16 => s.setBay b { y with evact := v.extractLsb' 0 33 }
  | 0x20 => s.setBay b { y with ptbase := v &&& 0x003FFFFFFFFFE000 }
  | 0x21 => s.writeCarve b (x / 16) v
  | 0x22 => s.setBay b { y with fillthr := v }
  | n => if rwCr n then s.setTile b x (t.setStrm j ((t.strm j).setCr n v)) else s

/-- One write landing on steward core `k`. -/
def State.landOwn (s : State) (k : Nat) (l : Land) : State :=
  let w := s.steward k
  match l with
  | .a _ n v => s.setSteward k { w with strm := { w.strm with a := put w.strm.a n v } }
  | .b _ n v => s.setSteward k { w with strm := { w.strm with b := put w.strm.b n v } }
  | .p _ n v => s.setSteward k { w with strm := { w.strm with p := put w.strm.p n v } }
  | .cr i num v =>
    if i < 10 then s.setSteward k (w.setCr num.toNat v)
    else
      let (b, x, j, n) := stargTarget k (BitVec.ofNat 18 (i - 10))
      s.writeTarget b x j n num.toNat v
  | .eret pie => s.setSteward k { w with estat := w.estat &&& 2#3 ||| (if pie then 1#3 else 0#3) }
  | _ => s

/-- The records of a core due by its tc: those of instructions, then a delivery's, which prevail (R378). -/
def Steward.due (w : Steward) : List Pend :=
  let d := w.pend.filter (fun r => r.due ≤ w.tc)
  d.filter (fun r => r.strm != 9) ++ d.filter (fun r => r.strm == 9)

/-- Steward core `k` with the word of the tc just over trapped when its write collides with one already in flight (02_execution
R34): the word writes nothing, and the core takes the synchronous trap. -/
def State.stewardCollision (s : State) (k : Nat) : State :=
  let w := s.steward k
  if w.pend.any (fun r => r.issued == w.tc && r.clashes Land.keys w.pend) then
    (s.setSteward k { w with pend := w.pend.filter (fun r => r.issued != w.tc || r.strm == 9) }).stewardTrap k 0x040
  else s

/-- Steward core `k` at the start of its next tc: a transfer taken five tc ago sends it to its target (05_control_registers R133),
and the writes due in it land. -/
def State.stewardBegin (s : State) (k : Nat) : State :=
  let s := s.stewardCollision k
  let w := s.steward k
  let w := { w with tc := w.tc + 1, strm := w.strm.turnTo (w.tc + 1) }
  let s := s.setSteward k { w with pend := w.pend.filter (fun r => w.tc < r.due) }
  w.due.foldl (fun s r => r.what.foldl (fun s l => s.landOwn k l) s) s

/-! ## Asynchronous deliveries (R378, R379) -/

/-- The deliveries pending at steward `k`, with causes 0x143 and 0x146 while a queue of its bay holds a record. -/
def State.pendingAt (s : State) (k : Nat) : List Delivery :=
  let own := (s.steward k).pending
  if k = 8 then own
  else
    let y := s.bay k
    let waiting (c : Cause) (b : Bool) : List Delivery := if b then [{ cause := c, rank := false, bay := k }] else []
    own ++ waiting 0x143 ((List.range 8).any (fun c => !(y.cluster c).faults.isEmpty)) ++ waiting 0x146 (!y.sysq.isEmpty)

/-- The pending delivery taken first: the lowest cause. -/
def firstDelivery : List Delivery → Option Delivery
  | [] => none
  | d :: ds => match firstDelivery ds with
    | none => some d
    | some e => some (if e.cause.toNat < d.cause.toNat then e else d)

/-- The offset of the word due on steward core `k` in its tc. -/
def State.stewardDue (s : State) (k : Nat) : Option (Nat × Code) :=
  let w := s.steward k
  (s.dueWord (.steward k) w.strm w.tc).map (fun d => (d.2.1, d.2.2))

/-- The delivery a steward core may take before the word due in its tc, with that word's address (R379). -/
def State.takeable (s : State) (k : Nat) : Option (Delivery × Nat) :=
  let w := s.steward k
  let slots := match w.strm.xfer with
    | some x => x.tc < w.tc
    | none => false
  if w.running && w.estat.getLsbD 0 && w.pend.isEmpty && !slots then
    match s.stewardDue k, firstDelivery (s.pendingAt k) with
    | some (off, _), some d => some (d, off)
    | _, _ => none
  else none

/-- ASYNC_DELIVERY (R378, R379): the core takes its lowest pending cause in place of the word due; its pending bit is
cleared. -/
def execAsyncDelivery (k : BitVec 4) (s : State) : Host.Outcome State Fault Refusal :=
  match s.takeable k.toNat with
  | none => .refused (.notEnabled "ASYNC_DELIVERY")
  | some (d, off) =>
    let w := s.steward k.toNat
    let w := { w with pending := w.pending.filter (fun e => e != d) }
    .next (s.setSteward k.toNat (w.deliver d.cause true d.rank off))

/-! ## Windows and registers -/

/-- FAULT_WINDOW_POP (R382): any write to the pop field of window `q`. -/
def execFaultWindowPop (q : BitVec 6) (s : State) : Host.Outcome State Fault Refusal :=
  .next (s.popFault (q.toNat / 8) (q.toNat % 8))

/-- REQUEST_WINDOW_POP (R383). -/
def execRequestWindowPop (b : BitVec 3) (s : State) : Host.Outcome State Fault Refusal := .next (s.popRequest b.toNat)

/-- CARVE_WRITE (08_memories R225): accepted, or ignored with cause 0x004 on the bay's steward core. -/
def execCarveWrite (b cl : BitVec 3) (v : BitVec 64) (s : State) : Host.Outcome State Fault Refusal :=
  .next (if badCarve v then s.stewardTrap b.toNat 0x004 else s.writeCarve b.toNat cl.toNat v)

/-- CARVE_TAKES_EFFECT (R226): the carve values waiting at a bay, while no rank is on it or it stands at a safe point. -/
def execCarveTakesEffect (b : BitVec 3) (s : State) : Host.Outcome State Fault Refusal :=
  let y := s.bay b.toNat
  let still := y.isParked || (match y.phase with
    | .taken _ => true
    | _ => false)
  if still || !y.occupied then .next (s.applyCarves b.toNat) else .refused (.notEnabled "CARVE_TAKES_EFFECT")

/-- STARG_WRITE (05_control_registers Table 19): a stream of 9 to 15 raises cause 0x004 and writes nothing. -/
def execStargWrite (k : BitVec 4) (v : BitVec 64) (s : State) : Host.Outcome State Fault Refusal :=
  let w := s.steward k.toNat
  .next (if 8 < (v.extractLsb' 10 4).toNat then s.stewardTrap k.toNat 0x004
    else s.setSteward k.toNat (w.setCr 0x45 v))

/-- PWRCTL_WRITE (19_boundaries R398): a write of 8 bytes of the power controller by the device steward. -/
def execPwrctlWrite (off : BitVec 8) (v : BitVec 64) (s : State) : Host.Outcome State Fault Refusal :=
  .next (match s.powerWrite off.toNat v.toNat with
    | .ok s => s
    | .error c => s.stewardTrap 8 c)

/-- The doorbell word written by the companion (19_boundaries R393): the last write prevails. -/
def State.ring (s : State) (v : Word) : State := { s with doorbell := v }.notify 8 0x14A

/-- DOORBELL (R393). -/
def execDoorbell (v : BitVec 64) (s : State) : Host.Outcome State Fault Refusal := .next (s.ring v)

end Sys2Proof.Machine
end

