-- ==== Sys2Proof/Machine/DeviceSteps.lean ====
section
/-! DEFINITION. Steps of the device as a whole: fabric links and time (19_boundaries R395 to
R397), the power controller (R398 to R402), boot, update and attestation (R404 to R407), the companion and CXL (R392 to
R394), failures (01_device R23; R399). -/

namespace Sys2Proof.Machine

/-! ## Fabric links and time (19_boundaries R395 to R397; 14_contexts R371) -/

/-- LINK_DOWN (R395): cause 0x14B at the device steward; traffic over the link waits. -/
def execLinkDown (port : BitVec 5) (s : State) : Host.Outcome State Fault Refusal :=
  if port.toNat < 24 then .next ({ s with ports := s.ports ||| (1#24 <<< port.toNat) }.notify 8 0x14B)
  else .refused (.notEnabled "LINK_DOWN")

/-- FABRIC_LINK_RETRAIN (R371): the link is back, and its traffic resumes. -/
def execFabricLinkRetrain (port : BitVec 5) (s : State) : Host.Outcome State Fault Refusal :=
  if port.toNat < 24 then .next { s with ports := s.ports &&& ~~~(1#24 <<< port.toNat) }
  else .refused (.notEnabled "FABRIC_LINK_RETRAIN")

/-- HBM_RETRAIN (R371): accesses homed on the stack are late; no value changes. -/
def execHbmRetrain (stack : BitVec 4) (s : State) : Host.Outcome State Fault Refusal :=
  if stack.toNat < 12 then .next s else .refused (.notEnabled "HBM_RETRAIN")

/-- The fabric time stepped once, at its acquisition (R396); from then on it never steps. The next telemetry tick is at the
next multiple of 100,000 ns. -/
def State.acquireTime (s : State) (t : Word) : State :=
  if s.acquired then s
  else { s with ftime := t, fphase := 0, acquired := true, power := { s.power with next := (t.toNat / 100000 + 1) * 100000 } }

/-- The offset of the device's time from the grandmaster's, in ns, from the four times of an exchange (IEEE 1588; R396): t1 and
t4 are the grandmaster's, t2 and t3 the device's. -/
def ptpOffset (t1 t2 t3 t4 : Word) : Int := ((t2.toInt - t1.toInt) - (t4.toInt - t3.toInt)) / 2

/-- The time root after a message of its exchange: times are taken in fabric time when a message arrives or leaves (R397). The
exchange's end steps an unacquired time to the grandmaster's; the root's offset from itself is none, so it is aligned. -/
def State.ptpStep (s : State) : PtpMessage → State
  | .sync => { s with ptp := [s.ftime] }
  | .followUp t1 => match s.ptp with
    | [t2] => { s with ptp := [t2, t1] }
    | _ => s
  | .delayReq => match s.ptp with
    | [t2, t1] => { s with ptp := [t2, t1, s.ftime] }
    | _ => s
  | .delayResp t4 => match s.ptp with
    | [t2, t1, t3] =>
      let s := s.acquireTime (s.ftime - BitVec.ofInt 64 (ptpOffset t1 t2 t3 t4))
      { s with ptp := [], power := { s.power with aligned := true } }
    | _ => s

/-- PTP_MESSAGE (R396, R397): the device steward of the time root runs the protocol; any other device lets the message be. -/
def execPtpMessage (m : PtpMessage) (s : State) : Host.Outcome State Fault Refusal :=
  .next (if s.timeRoot && (s.steward 8).running then s.ptpStep m else s)

/-- PATH_DELAY_EXCHANGE (R396): on a device that is not the time root, over the link to its upstream neighbour, the time of that
neighbour, which has acquired it, plus the measured path delay, a free value, acquires time; `aligned` says whether the estimated offset lies within 2 ns of the
root. -/
def execPathDelayExchange (upstream : BitVec 64) (aligned : Bool) (s : State) : Host.Outcome State Fault Refusal :=
  if s.timeRoot then .next s
  else if !s.linkUp s.rootPort then .refused (.notEnabled "PATH_DELAY_EXCHANGE")
  else
    let s' := s.acquireTime (upstream + BitVec.ofNat 64 (Config.pathDelay s.free))
    .next { s' with free := s.free + 1, power := { s'.power with aligned := aligned } }

/-! ## The power controller (R399 to R402) -/

/-- Whether a tick shows a sensor above 105 degrees, power above the cap, or power that rises or falls as fast as the slew limit
lets it (Table 2). The slew limit of a 0.1 ms tick in mW is 100 times its value in W/ms. -/
def anyHot (m : Measure) : Bool := m.hottest.any (fun t => 105 < t.toNat)
def Power.over (p : Power) (m : Measure) : Bool := 1000 * p.cap.toNat < m.package.toNat
def Power.step (p : Power) : Nat := 100 * p.slew.toNat
def Power.rises (p : Power) (m : Measure) : Bool := p.range.isSome && p.last.toNat + p.step ≤ m.package.toNat
def Power.falls (p : Power) (m : Measure) : Bool := p.range.isSome && m.package.toNat + p.step ≤ p.last.toNat

/-- Whether the package power of a tick keeps the slew bound against every tick before it (R399): no other is measured. -/
def Power.allows (p : Power) (m : Measure) : Bool :=
  match p.range with
  | none => true
  | some (lo, hi) => lo ≤ m.package.toNat + p.step + 20000 && m.package.toNat ≤ hi + p.step + 20000

/-- The power controller after a tick: a higher limit overrides a lower one (R399), so that ballast yields to heat and cap, and
the floor to the slew limit. -/
def Power.tick (p : Power) (m : Measure) : Power :=
  let mw := m.package.toNat
  { p with
    therm := anyHot m
    thr := anyHot m || p.over m || p.rises m
    bal := p.ben && !anyHot m && !p.over m && (p.falls m || (!p.rises m && mw < 1000 * p.floor.toNat))
    range := some (match p.range with
      | none => (mw, mw)
      | some (lo, hi) => (max mw (lo - p.step), min mw (hi + p.step)))
    last := m.package
    next := p.next + 100000
    seq := p.seq + 1 }

/-- The telemetry record of a tick (R402), from the power controller after the tick. -/
def telemetryRecord (ftime : Word) (m : Measure) (p : Power) : List Byte :=
  wordBytes ftime ++ leBytes 4 m.package.toNat ++ leBytes 4 m.hub.toNat
    ++ (List.range 8).flatMap (fun i => leBytes 4 ((m.bays[i]?).getD 0).toNat) ++ leBytes 4 (p.seq - 1).toNat
    ++ leBytes 4 p.st ++ leBytes 1 ((m.hottest.map (fun t => t.toNat)).foldl max 0) ++ zeros 7

/-- A bay after a tick: a hot one throttled until no sensor is hot (R401), every bay for cap or slew; its energy in µJ, with what is
less than one kept for the next tick (R402; 13_counters R352; log entry 27). -/
def Bay.tick (y : Bay) (i : Nat) (m : Measure) (p : Power) : Bay :=
  let e := y.spare + ((m.bays[i]?).getD 0).toNat
  { y with
    throttle := p.over m || p.rises m
    hot := 105 < ((m.hottest[i]?).getD 0).toNat || (y.hot && anyHot m)
    energy := y.energy + BitVec.ofNat 64 (e / 10)
    spare := e % 10 }

/-- Whether a telemetry tick is due: every 100,000 ns of fabric time (R398), also once the device has stopped (R399). -/
def State.tickDue (s : State) : Bool := (s.phase == .service || s.phase == .stopped) && s.power.next ≤ s.ftime.toNat

/-- What the controller measures at a tick of its own (log entry 13): a package power that the slew bound allows, and free
values. -/
def State.measure (s : State) : Measure :=
  let f (i : Nat) : Nat := Config.measured s.free i
  let package := match s.power.range with
    | none => f 0 % 2 ^ 32
    | some (lo, hi) => let l := lo - s.power.step; l + f 0 % (hi + s.power.step + 1 - l)
  { package := BitVec.ofNat 32 package, hub := BitVec.ofNat 32 (f 1)
    bays := (List.range 8).map (fun i => BitVec.ofNat 32 (f (2 + i)))
    hottest := (List.range 8).map (fun i => BitVec.ofNat 8 (f (10 + i))) }

/-- The device stopped by a thermal trip, across which the slew bound does not hold (R399, R401). -/
def State.trip (s : State) : State := { s with phase := .stopped, power := { s.power with range := none } }

/-- TELEMETRY_TICK (R398 to R402): the measured powers and sensors of the tick; above 105 degrees cause 0x14C, above 115 the
device stops. -/
def execTelemetryTick (m : Measure) (s : State) : Host.Outcome State Fault Refusal :=
  if s.tickDue && s.power.allows m then
    let p := s.power.tick m
    let ring := s.power.telbase.toNat
    let s : State := { s with
      power := p
      bays := Vector.ofFn (fun b : Fin 8 => s.bays[b.val].tick b.val m s.power) }
    let at_ := ring + 64 * ((p.seq - 1).toNat % 4096)
    let s := if ring ≠ 0 ∧ s.locOk at_ 64 then s.homeWrite at_ (telemetryRecord s.ftime m p) else s
    let trip := m.hottest.any (fun t => 115 < t.toNat)
    let s := if trip then s.trip else s
    .next (if p.therm || trip then s.notify 8 0x14C else s)
  else .refused (.notEnabled "TELEMETRY_TICK")

/-! ## Boot and update (R404 to R406; 01_device R24) -/

/-- The better of the valid images of a type and die: the higher version (R405). -/
def bestImage (fs : List FlashImage) (kind die : Nat) : Option FlashImage :=
  (fs.filter (fun f => f.kind.toNat == kind && f.die.toNat == die && f.verifies)).foldl (fun m f => match m with
    | none => some f
    | some g => some (if g.version.toNat < f.version.toNat then f else g)) none

/-- The device at reset, with what is outside it or keeps without power: flash, and CXL and companion memory (log entry
2). The wall clock runs on. -/
def State.afterReset (s : State) : State :=
  { State.reset with
    wc := s.wc
    turn := s.turn
    agenda := s.agenda
    free := s.free
    mem := s.mem.filter (fun c => 2 ≤ tierOf c.1)
    badLines := s.badLines.filter (fun no => 2 ≤ tierOf (128 * no))
    flash := s.flash
    cxlSize := s.cxlSize
    compSize := s.compSize
    timeRoot := s.timeRoot
    mirrorPort := s.mirrorPort
    rootPort := s.rootPort }

/-- Steward core `k` started from its best image, when it has one. -/
def State.startSteward (s : State) (k : Nat) : State :=
  match bestImage s.flash (stewardImage k).1 (stewardImage k).2 with
  | some f => s.setSteward k ((s.steward k).load f)
  | none => s

/-- Whether settings carve an HDM range out of the LPDDR tier: 1 GiB to 256 GiB of it (R394). -/
def State.hasHdm (s : State) (c : Settings) : Bool :=
  1 ≤ c.hdmSize && c.hdmSize ≤ 256 && (c.hdmBase + c.hdmSize) * 2 ^ 30 ≤ s.tierSize 1

/-- The device with the settings of its configuration image (R405; 01_device R24): each bay has its voltage and frequency
tables. A range that R394 does not allow is none (DESIGN CHOICE, log entry 87). -/
def State.configure (s : State) (c : Settings) : State :=
  { s with
    settings := if s.hasHdm c then c else { c with hdmBase := 0, hdmSize := 0 }
    bays := Vector.ofFn (fun b : Fin 8 => { s.bays[b.val] with tables := c.tables.getD b.val [] }) }

/-- DEVICE_RESET (R405, R24): without a configuration image that verifies no bay comes up; otherwise its settings hold, the
firmware slots start, and the bays wait for their self-test. -/
def execDeviceReset (s : State) : Host.Outcome State Fault Refusal :=
  let s := s.afterReset
  match s.flash.find? (fun f => f.kind == 1#8 && f.verifies) with
  | some f =>
    let s := (List.range 9).foldl State.startSteward (s.configure f.settings)
    .next { s with phase := if (s.steward 8).running then .service else .boot }
  | none => .next s

/-- Whether an image is for the slot its steward core runs from: a live update writes the other one (R406). -/
def State.slotBusy (s : State) (f : FlashImage) : Bool :=
  (List.range 9).any (fun k => (stewardImage k == (f.kind.toNat, f.die.toNat)) && (s.steward k).running
    && (s.steward k).slotB == f.slotB)

/-- Whether an image lies in the slot of another. -/
def sameSlot (f g : FlashImage) : Bool := f.kind == g.kind && f.die == g.die && f.slotB == g.slotB

/-- The flash with an image written into its slot. -/
def putImage (fs : List FlashImage) (f : FlashImage) : List FlashImage :=
  f :: fs.filter (fun g => !sameSlot g f)

/-- Whether new firmware of steward core `k` may take effect now (14_contexts R370, R371): on a drained bay without a rank,
or for the device steward while every rank of the device, on a bay or switched out, stands at a step boundary. -/
def State.canRestart (s : State) (k : Nat) : Bool :=
  if k < 8 then (s.bay k).drained && (s.bay k).free
  else s.bays.toList.all (fun y => y.free || (y.isParked && y.atStep))
    && s.parked.all (fun p => p.live || (s.homeLe (p.save.toNat + 2) 1).1 != 1)

/-- The state with every waiting firmware image that may take effect now loaded into its steward core (R406). -/
def State.update (s : State) : State :=
  s.updates.foldl (fun s u =>
    if s.canRestart u.1 then
      { s.setSteward u.1 ((s.steward u.1).load u.2) with updates := s.updates.filter (fun v => v.1 != u.1) }
    else s) s

/-- FIRMWARE_UPDATE (R406), which the device steward writes: an image that fails verification raises 0x14D and leaves the active
slot; another takes effect as R370 and R371 give, now or later. One that waits and is overwritten in flash never does. -/
def execFirmwareUpdate (f : FlashImage) (s : State) : Host.Outcome State Fault Refusal :=
  if !(s.steward 8).running || s.slotBusy f then .refused (.notEnabled "FIRMWARE_UPDATE")
  else
    let s := { s with flash := putImage s.flash f, updates := s.updates.filter (fun u => !sameSlot u.2 f) }
    if !f.verifies then .next (s.notify 8 0x14D)
    else
      let cores := (List.range 9).filter (fun k => stewardImage k == (f.kind.toNat, f.die.toNat))
      let kept := s.updates.filter (fun u => !cores.contains u.1)
      .next ({ s with updates := kept ++ cores.map (fun k => (k, f)) } : State).update

/-! ## Attestation (R407) -/

/-- Whether a request is answered: magic, version and reserved bytes (Table 5). -/
def goodRequest (req : List Byte) : Bool :=
  req.length == 64 && leNat (req.take 4) == 0x51535441 && leNat ((req.drop 4).take 2) == 1
    && leNat ((req.drop 6).take 2) == 0 && leNat ((req.drop 0x30).take 16) == 0

/-- `n` free bytes of the signature of report `c`, from number `i` (log entry 14). -/
def freeBytes (c i n : Nat) : List Byte := (List.range n).map (fun j => Config.attestationByte c (i + j))

/-- The 64 bytes of the digest of an image's header and body, in whichever slot it lies (log entry 14). -/
def digestOf (f : FlashImage) : List Byte :=
  (List.range 64).map (Config.imageDigest { f with slotB := false, settings := {}, signed := false })

/-- An image entry: type, die, running slot, version, digest. -/
def State.imageEntry (s : State) (j : Nat) : List Byte :=
  let k := if j = 1 then 8 else 2 * (j - 2)
  let w := s.steward k
  let kd : Nat × Nat := if j = 0 then (1, 4) else stewardImage k
  let f := s.flash.find? (fun f => f.kind.toNat == kd.1 && (j == 0 || (f.die.toNat == kd.2 && f.slotB == w.slotB)))
  let die := if j = 0 then (f.map (fun (f : FlashImage) => f.die.toNat)).getD 0 else kd.2
  leBytes 1 kd.1 ++ leBytes 1 die ++ leBytes 1 (if j ≠ 0 ∧ w.slotB then 1 else 0) ++ zeros 1
    ++ leBytes 4 (f.map (fun (f : FlashImage) => f.version.toNat) |>.getD 0) ++ zeros 8 ++ (f.map digestOf).getD (zeros 64) ++ zeros 16

/-- The attestation report (Table 6), 2,000 bytes. -/
def State.report (s : State) (req : List Byte) : List Byte :=
  let len := (Config.attestationByte s.free 448).toNat * 256 + (Config.attestationByte s.free 449).toNat
  let n := len % 1281
  leBytes 4 0x54505241 ++ leBytes 2 1 ++ leBytes 2 6 ++ wordBytes s.ftime ++ (req.drop 0x10).take 32 ++ zeros 16
    ++ (List.range 6).flatMap s.imageEntry ++ (List.range 64).map (Config.keyDigest s.settings.identity)
    ++ leBytes 2 n ++ zeros 14
    ++ freeBytes s.free 450 n ++ zeros (1280 - n)

/-- The companion-memory location a request asks its report at (Table 5). -/
def replyLoc (req : List Byte) : Nat := 3 * 2 ^ 52 + leNat ((req.drop 8).take 8)

/-- A report written to companion memory, its magic word last (R407). -/
def State.writeReport (s : State) (loc : Nat) (bs : List Byte) : State :=
  (s.homeWrite loc (zeros 4 ++ bs.drop 4)).homeWrite loc (bs.take 4)

/-- ATTESTATION_REQUEST (R407): a datagram `req` on the management port is answered by a datagram. Over the Caravan link `req` is
what the mailbox holds while the doorbell has its value; the device steward writes the report to companion memory. A bad
request receives none. -/
def execAttestationRequest (management : Bool) (req : List Byte) (s : State) : Host.Outcome State Fault Refusal :=
  let s' := { s with free := s.free + 1 }
  if !management && (s.doorbell.toNat != 0x51535441 || s.mailbox.toList != req) then
    .refused (.notEnabled "ATTESTATION_REQUEST")
  else if !(s.steward 8).running || !goodRequest req then .next s
  else if management then .next s'
  else if replyLoc req % 4096 = 0 ∧ s.locOk (replyLoc req) 2000 then .next (s'.writeReport (replyLoc req) (s.report req))
  else .next s

/-! ## The companion and CXL (R392 to R394) -/

/-- A companion write of 8 bytes at an offset of the Caravan window (Table 1). -/
def State.windowWrite (s : State) (off : Nat) (bs : List Byte) : State :=
  if off = 0 then s.ring (BitVec.ofNat 64 (leNat bs))
  else if 0x40 ≤ off ∧ off < 0x80 then
    { s with mailbox := Vector.ofFn (fun i : Fin 64 =>
        if off ≤ 0x40 + i.val ∧ 0x40 + i.val < off + 8 then (bs[0x40 + i.val - off]?).getD 0 else s.mailbox[i.val]) }
  else s

/-- What the companion reads at an offset of the window (Table 1). -/
def State.windowRead (s : State) (off : Nat) : Word :=
  if off = 0x08 then
    BitVec.ofNat 64 ((if (s.steward 8).pending.any (fun d => d.cause == 0x14A) then 1 else 0)
      + (if (s.steward 8).running then 2 else 0) + (if s.acquired then 4 else 0))
  else if off = 0x10 then 1
  else if 0x40 ≤ off ∧ off < 0x80 then BitVec.ofNat 64 (leNat ((s.mailbox.toList.drop (off - 0x40)).take 8))
  else 0

/-- Whether `n` bytes at `loc` lie in the HDM range (R394). -/
def State.inHdm (s : State) (loc n : Nat) : Bool :=
  tierOf loc == 1 && s.settings.hdmBase * 2 ^ 30 ≤ paOf loc && paOf loc + n ≤ (s.settings.hdmBase + s.settings.hdmSize) * 2 ^ 30

/-- The bias of a page of the HDM range, by number in the tier (R394). -/
def State.setBias (s : State) (page : Nat) (host : Bool) : State :=
  let ps := s.hostBias.filter (· != page)
  { s with hostBias := if host then page :: ps else ps }

/-- The state with a rank assigned to bay `b`, and to no other (02_execution R55). -/
def State.assignTo (s : State) (b : Nat) (a : Assigned) : State :=
  let others (y : Bay) : List Assigned := y.assigned.filter (fun c => !(c.job == a.job && c.rank == a.rank))
  let s : State := { s with bays := s.bays.map (fun y => { y with assigned := others y }) }
  s.setBay b { s.bay b with assigned := a :: (s.bay b).assigned }

/-- COMPANION_ACCESS (R392, R393): served at the line's home; a window access is an aligned 8-byte word. A read changes
nothing. What the companion and its job manager ask of the device steward: a new size of companion memory (11_tables R292), a
page's bias (R394), whether this device is the time root and which port leads there (R396), the port towards the mirror device
(14_contexts R366), and a rank for a bay (02_execution R55). -/
def execCompanionAccess (a : HostAccess) (s : State) : Host.Outcome State Fault Refusal :=
  let window (loc : Word) (n : Nat) : Bool := loc.getLsbD 63 && (loc.toNat - 2 ^ 63) % 8 == 0 && loc.toNat < 2 ^ 63 + 2 ^ 16 && n == 8
  let asked (t : State) : Host.Outcome State Fault Refusal :=
    if (s.steward 8).running then .next t else .refused (.notEnabled "COMPANION_ACCESS")
  match a with
  | .read loc n => if window loc n || s.locOk loc.toNat n then .next s else .refused (.notEnabled "COMPANION_ACCESS")
  | .write loc bs =>
    if window loc bs.length then .next (s.windowWrite (loc.toNat - 2 ^ 63) bs)
    else if s.locOk loc.toNat bs.length then .next (s.homeWrite loc.toNat bs)
    else .refused (.notEnabled "COMPANION_ACCESS")
  | .size n => asked { s with compSize := n }
  | .bias page host =>
    if s.inHdm (2 ^ 52 + 65536 * page) 65536 then asked (s.setBias page host) else .refused (.notEnabled "COMPANION_ACCESS")
  | .nameRoot root port => asked { s with timeRoot := root, rootPort := port }
  | .mirror port => asked { s with mirrorPort := port }
  | .assign b job rank filler => asked (s.assignTo b.toNat { job := job, rank := rank, filler := filler })

/-- CXL_ACCESS (R394): a host access to the HDM range, or another agent's to the CXL tier, at the line's home; the bias of a page
decides only the path. The port enumerates the size of the CXL tier (11_tables R292). -/
def execCxlAccess (a : HostAccess) (s : State) : Host.Outcome State Fault Refusal :=
  let reach (loc : Word) (n : Nat) : Bool := s.locOk loc.toNat n && (s.inHdm loc.toNat n || tierOf loc.toNat == 2)
  match a with
  | .read loc n => if reach loc n then .next s else .refused (.notEnabled "CXL_ACCESS")
  | .write loc bs => if reach loc bs.length then .next (s.homeWrite loc.toNat bs) else .refused (.notEnabled "CXL_ACCESS")
  | .size n => if (s.steward 8).running then .next { s with cxlSize := n } else .refused (.notEnabled "CXL_ACCESS")
  | .bias _ _ => .refused (.notEnabled "CXL_ACCESS")
  | .nameRoot _ _ => .refused (.notEnabled "CXL_ACCESS")
  | .mirror _ => .refused (.notEnabled "CXL_ACCESS")
  | .assign _ _ _ _ => .refused (.notEnabled "CXL_ACCESS")

/-! ## Failures (01_device R23; R399) -/

/-- The device out of service; the slew bound does not hold across it (R399). -/
def State.stop (s : State) : State := { s.trip with bays := s.bays.map (fun y => { y with service := false }) }

/-- SHARED_PART_FAILURE (R23). -/
def execSharedPartFailure (_p : SharedPart) (s : State) : Host.Outcome State Fault Refusal := .next s.stop

/-- BOARD_POWER_LOSS (R399): the package stops, its steward cores with it, until the next device reset. -/
def execBoardPowerLoss (s : State) : Host.Outcome State Fault Refusal :=
  .next { s.stop with phase := .off, stewards := s.stewards.map (fun w => { w with running := false }) }

end Sys2Proof.Machine
end

