-- ==== Sys2Proof/Machine/Integer.lean ====
section
/-! DEFINITION. Scalar integer arithmetic, groups 0x04 and 0x05 (05_control_registers R151, Table 11). -/

namespace Sys2Proof.Machine

/-- A word of the 0x04 and 0x05 groups: `f` of its operands A and B to the a-register D, `lat` tc later. -/
def intWord (i : Instr) (h : Head) (o : Ops) (lat : Nat) (f : Word → Word → Word) (s : State) :
    Host.Outcome State Fault Refusal :=
  scalarWord allStreams true i h s noHazard
    (fun s => s.writeA lat (aReg o.d) (f (s.intVal o.a o.c) (s.intVal o.b o.c)))

/-- x · 2^uint(y) mod 2^64; 0 when uint(y) ≥ 64. -/
def shlW (x y : Word) : Word := if 64 ≤ y.toNat then 0 else x <<< y.toNat

/-- uint(x) div 2^uint(y); 0 when uint(y) ≥ 64. -/
def shrW (x y : Word) : Word := if 64 ≤ y.toNat then 0 else x >>> y.toNat

/-- sint(x) div 2^min(uint(y), 63). -/
def sarW (x y : Word) : Word := x.sshiftRight (min y.toNat 63)

/-- The high 64 bits of the product, signed or unsigned. -/
def mulhW (u : Bool) (x y : Word) : Word :=
  if u then BitVec.ofNat 64 (x.toNat * y.toNat / 2 ^ 64) else BitVec.ofInt 64 (x.toInt * y.toInt / 2 ^ 64)

/-- The quotient truncated toward zero; all ones for y = 0; signed −2^63 / −1 wraps to −2^63. -/
def divW (u : Bool) (x y : Word) : Word :=
  if y = 0 then BitVec.allOnes 64
  else if u then BitVec.ofNat 64 (x.toNat / y.toNat) else BitVec.ofInt 64 (x.toInt.tdiv y.toInt)

/-- x − y · DIV(x, y); x for y = 0. -/
def remW (u : Bool) (x y : Word) : Word := if y = 0 then x else x - y * divW u x y

/-- Leading zero bits, 0 to 64. -/
def clzW (x : Word) : Word := if x = 0 then 64 else BitVec.ofNat 64 (63 - x.toNat.log2)

/-- One bits of a number, over its lowest `n` bits. -/
def popcount (x : Nat) : Nat → Nat
  | 0 => 0
  | n + 1 => x % 2 + popcount (x / 2) n

/-- One bits, 0 to 64. -/
def popcW (x : Word) : Word := BitVec.ofNat 64 (popcount x.toNat 64)

/-- x[pos+len−1 : pos], zero- or sign-extended. -/
def extW (sx : Bool) (x : Word) (pos len : Nat) : Word :=
  let f := x.toNat / 2 ^ pos % 2 ^ len
  if sx ∧ 1 ≤ len ∧ 2 ^ (len - 1) ≤ f then BitVec.ofInt 64 ((f : Int) - 2 ^ len) else BitVec.ofNat 64 f

/-- d with d[pos+len−1 : pos] := x[len−1 : 0]. -/
def insW (d x : Word) (pos len : Nat) : Word :=
  BitVec.ofNat 64 (d.toNat % 2 ^ pos + (x.toNat % 2 ^ len) * 2 ^ pos + d.toNat / 2 ^ (pos + len) * 2 ^ (pos + len))

def execAdd (h : Head) (o : Ops) (s : State) := intWord (.add h o) h o 1 (· + ·) s
def execSub (h : Head) (o : Ops) (s : State) := intWord (.sub h o) h o 1 (· - ·) s
def execAnd (h : Head) (o : Ops) (s : State) := intWord (.and h o) h o 1 (· &&& ·) s
def execOr (h : Head) (o : Ops) (s : State) := intWord (.or h o) h o 1 (· ||| ·) s
def execXor (h : Head) (o : Ops) (s : State) := intWord (.xor h o) h o 1 (· ^^^ ·) s
def execAndn (h : Head) (o : Ops) (s : State) := intWord (.andn h o) h o 1 (fun x y => x &&& ~~~y) s
def execShl (h : Head) (o : Ops) (s : State) := intWord (.shl h o) h o 1 shlW s
def execShr (h : Head) (o : Ops) (s : State) := intWord (.shr h o) h o 1 shrW s
def execSar (h : Head) (o : Ops) (s : State) := intWord (.sar h o) h o 1 sarW s
def execMin (h : Head) (o : Ops) (s : State) := intWord (.min h o) h o 1 (fun x y => if x.toInt ≤ y.toInt then x else y) s
def execMax (h : Head) (o : Ops) (s : State) := intWord (.max h o) h o 1 (fun x y => if x.toInt ≤ y.toInt then y else x) s
def execMinu (h : Head) (o : Ops) (s : State) := intWord (.minu h o) h o 1 (fun x y => if x.toNat ≤ y.toNat then x else y) s
def execMaxu (h : Head) (o : Ops) (s : State) := intWord (.maxu h o) h o 1 (fun x y => if x.toNat ≤ y.toNat then y else x) s

/-- SEL: x when the predicate C is true, else y. -/
def execSel (h : Head) (o : Ops) (s : State) :=
  scalarWord allStreams true (.sel h o) h s noHazard
    (fun s => s.writeA 1 (aReg o.d)
      (if s.strm.readP (pReg (cSel o.c)) then s.intVal o.a o.c else s.intVal o.b o.c))

def execMul (h : Head) (o : Ops) (s : State) := intWord (.mul h o) h o 3 (· * ·) s
def execMulh (h : Head) (o : Ops) (u : Bool) (s : State) := intWord (.mulh h o u) h o 3 (mulhW u) s
def execDiv (h : Head) (o : Ops) (u : Bool) (s : State) := intWord (.div h o u) h o 20 (divW u) s
def execRem (h : Head) (o : Ops) (u : Bool) (s : State) := intWord (.rem h o u) h o 20 (remW u) s
def execClz (h : Head) (o : Ops) (s : State) := intWord (.clz h o) h o 1 (fun x _ => clzW x) s
def execPopc (h : Head) (o : Ops) (s : State) := intWord (.popc h o) h o 1 (fun x _ => popcW x) s

/-- EXT: a bit field of x, at the position and length B and C hold. -/
def execExt (h : Head) (o : Ops) (sx : Bool) (s : State) :=
  scalarWord allStreams true (.ext h o sx) h s noHazard
    (fun s => s.writeA 1 (aReg o.d)
      (extW sx (s.intVal o.a o.c) (immVal o.b).toNat (immVal (cSel o.c)).toNat))

/-- INS: a bit field of d replaced; d is read at issue. -/
def execIns (h : Head) (o : Ops) (s : State) :=
  scalarWord allStreams true (.ins h o) h s noHazard
    (fun s => s.writeA 1 (aReg o.d)
      (insW (s.strm.readA (aReg o.d)) (s.intVal o.a o.c) (immVal o.b).toNat (immVal (cSel o.c)).toNat))

end Sys2Proof.Machine
end

