-- ==== Sys2Proof/Machine/Loops.lean ====
section
/-! DEFINITION. Hardware loops and the loop-nest sequencer, group 0x02 (05_control_registers R155 to R160; 06_vector_rows
R169). -/

namespace Sys2Proof.Machine

/-- Writes of physical stage predicates, with the q registers that follow them in MX, VA, VB and SF (R169). -/
def State.landStage (s : State) (ps : List (Nat × Bool)) : List Land :=
  let k := s.strmNo
  ps.flatMap (fun (n, v) =>
    Land.p k n v :: (if !s.onSteward && 2 ≤ k && k ≤ 5 then
      [Land.q k n (BitVec.allOnes 512) (if v then BitVec.allOnes 512 else 0)] else []))

/-- The value of rot (Table 4). -/
def rotVal (ra rp rv : Nat) : Word := BitVec.ofNat 64 (ra + rp * 2 ^ 8 + rv * 2 ^ 16)

/-- Writes of lcnt, lbnd and rot. -/
def State.landLoop (s : State) (lcnt n sc : Nat) (rot : Word) : List Land :=
  let k := s.strmNo
  [.cr k 0x02 (BitVec.ofNat 64 lcnt), .cr k 0x03 (BitVec.ofNat 64 (n + sc * 2 ^ 32)), .cr k 0x04 rot]

/-- The trip count LPSET reads (R155). -/
def State.tripCount (s : State) (o : Ops) : Nat :=
  match o.a, o.c with
  | .a n, _ => (s.strm.readA n).toNat % 2 ^ 32
  | .imm v, _ => v.toInt.toNat
  | _, .lit w => w.toNat
  | _, _ => 0

/-- LPSET (R155): starts a loop of N trips and s stages, or for N = 0 clears it and transfers to the exit. -/
def execLpset (h : Head) (o : Ops) (s : State) :=
  scalarWord allStreams true (.lpset h o) h s
    (fun s => if s.tripCount o = 0 then transferHazards (s.strm.readB (bReg o.d)) s else [])
    (fun s =>
      let n := s.tripCount o
      let sc := (immVal o.b).toNat
      let stage := s.landStage ((List.range 8).map (fun j => (8 + j, n != 0 && j == 0)))
      if n = 0 then
        (s.post 1 (s.landLoop 0 0 0 0 ++ stage)).transferTo (s.strm.readB (bReg o.d))
      else s.post 1 (s.landLoop 0 n sc 0 ++ stage))

/-- Whether LPEND continues the loop: a loop is active and the iteration about to start is one of n + s − 1 (R156). -/
def Strm.loopContinues (u : Strm) : Bool :=
  u.lbndS != 0 && u.lcnt.toNat + 1 < u.lbndN.toNat + u.lbndS.toNat - 1

/-- LPEND (R156): rotates, and starts the next iteration with its stage predicates or ends the loop. -/
def execLpend (h : Head) (o : Ops) (s : State) :=
  scalarWord allStreams true (.lpend h o) h s
    (fun s => if s.strm.loopContinues then transferHazards (s.strm.readB (bReg o.d)) s else [])
    (fun s =>
      let u := s.strm
      if u.lbndS = 0 then s
      else
        let ra := (u.ra.toNat + 1) % 16
        let rp := (u.rp.toNat + 1) % 8
        let rv := (u.rv.toNat + 1) % 128
        let n := u.lbndN.toNat
        let sc := u.lbndS.toNat
        let i := u.lcnt.toNat + 1
        let phys (j : Nat) : Nat := 8 + (j + 8 - rp) % 8
        if u.loopContinues then
          (s.post 1 (s.landLoop i n sc (rotVal ra rp rv)
            ++ s.landStage ((List.range sc).map (fun j => (phys j, j ≤ i && i - j < n))))).transferTo
              (u.readB (bReg o.d))
        else
          s.post 1 (s.landLoop 0 0 0 (rotVal ra rp rv)
            ++ s.landStage ((List.range 8).map (fun j => (phys j, false)))))

/-- Cause 0x00E outside CT and 0x00F on a steward core (R147, R161). -/
def ctOnly (s : State) : List Hazard := notOnSteward s ++ when (!s.onSteward && s.strmNo != 0) 0x00E

/-- Position `k` of a permutation, counted from the outermost (R159). -/
def permAt (perm : BitVec 8) (k : Nat) : Nat := perm.toNat / 4 ^ k % 4

/-- The value of LNDEF's perm operand. -/
def permVal (o : Ops) : BitVec 8 :=
  match o.b, o.c with
  | .imm v, _ => v
  | _, .lit w => w.setWidth 8
  | _, _ => 0

/-- Whether B gives LNDEF its perm operand; a B of another class, or 0xF01 without a literal, raises its own cause
(03_encoding R69, R70). -/
def hasPerm (o : Ops) : Bool :=
  match o.b, o.c with
  | .imm _, _ => true
  | .lit, .lit _ => true
  | _, _ => false

/-- The trip counts LNDEF reads from the logical registers ab up (R159). -/
def State.nestTrips (s : State) (ab : BitVec 5) (n : Nat) : List (BitVec 32) :=
  (List.range n).map (fun q => (s.strm.readA (ab + BitVec.ofNat 5 q)).setWidth 32)

/-- The product of the trip counts. -/
def tripProduct (t : List (BitVec 32)) : Nat := t.foldl (fun m x => m * x.toNat) 1

/-- LNDEF (R159): defines CT's nest and sets the slot number to 0. -/
def execLndef (h : Head) (o : Ops) (s : State) :=
  scalarWord allStreams true (.lndef h o) h s
    (fun s =>
      let ab := aReg o.d
      let n := (immVal o.a).toNat
      let ps := (List.range n).map (permAt (permVal o))
      ctOnly s ++ when (o.d == .a 0 || 31 < ab.toNat + n - 1
          || (hasPerm o && !((List.range n).all ps.contains))) 0x004
        ++ when (2 ^ 48 ≤ tripProduct (s.nestTrips ab n)) 0x048)
    (fun s =>
      let ab := aReg o.d
      let n := (immVal o.a).toNat
      let t := s.nestTrips ab n
      s.setStrm { s.strm with nest := { n := BitVec.ofNat 8 n, perm := permVal o, ab := ab.setWidth 8,
                                        t := t ++ List.replicate (4 - n) 0, j := 0 } })

/-- The number of trips T of a nest; 0 for no nest (R159). -/
def Nest.total (e : Nest) : Nat := if e.n = 0 then 0 else tripProduct (e.t.take e.n.toNat)

/-- The slots of a nest in a stage of `pt` tiles (R54). -/
def Nest.slots (e : Nest) (pt : Nat) : Nat := (e.total + pt - 1) / pt

/-- The indices of iteration `rest`: (loop, index), innermost first (R160). -/
def nestIndices (e : Nest) (valid : Bool) : Nat → Nat → List (Nat × Nat)
  | 0, _ => []
  | k + 1, rest =>
    let l := permAt e.perm k
    let t := ((e.t[l]?).getD 0).toNat
    (l, if valid then rest % t else 0) :: nestIndices e valid k (rest / t)

/-- The writes of slot `j`: pv and the index registers (R160); all false and zero when `live` is false. -/
def State.landNest (s : State) (pv : BitVec 4) (e : Nest) (j : Nat) (live : Bool) : List Land :=
  let y := s.curBay
  let i := match s.core with
    | .tile _ x _ => y.lidxOf x
    | .steward _ => 0
  let pt := 128 / max 1 y.nstage.toNat
  let first := i * e.total / pt
  let len := (i + 1) * e.total / pt - first
  let valid := live && j < len
  s.landP pv valid ++ (nestIndices e valid e.n.toNat (first + j)).flatMap
    (fun (l, v) => s.landA (e.ab.setWidth 5 + BitVec.ofNat 5 l) (BitVec.ofNat 64 v))

/-- The tiles of a stage, 128 / nstage (R52). -/
def Bay.pt (y : Bay) : Nat := 128 / max 1 y.nstage.toNat

/-- LNGO (R160): starts the walk at slot 0, or over an empty nest transfers to the exit. -/
def execLngo (h : Head) (o : Ops) (s : State) :=
  scalarWord allStreams true (.lngo h o) h s
    (fun s => ctOnly s ++ (if s.strm.nest.slots s.curBay.pt = 0 then
      transferHazards (s.strm.readB (bReg o.a)) s else []))
    (fun s =>
      let e := { s.strm.nest with j := 0 }
      let t := s.setStrm { s.strm with nest := e }
      if e.slots s.curBay.pt = 0 then
        (t.post 1 (s.landNest (pReg o.d) e 0 false)).transferTo (s.strm.readB (bReg o.a))
      else t.post 1 (s.landNest (pReg o.d) e 0 true))

/-- LNNEXT (R160): the next slot and a transfer to the head, or the end of the nest. -/
def execLnnext (h : Head) (o : Ops) (s : State) :=
  scalarWord allStreams true (.lnnext h o) h s
    (fun s => ctOnly s ++ (if s.strm.nest.j.toNat + 1 < s.strm.nest.slots s.curBay.pt then
      transferHazards (s.strm.readB (bReg o.a)) s else []))
    (fun s =>
      let e := s.strm.nest
      let j := e.j.toNat + 1
      if j < e.slots s.curBay.pt then
        ((s.setStrm { s.strm with nest := { e with j := BitVec.ofNat 64 j } }).post 1
          (s.landNest (pReg o.d) e j true)).transferTo (s.strm.readB (bReg o.a))
      else (s.setStrm { s.strm with nest := {} }).post 1 (s.landNest (pReg o.d) e j false))

end Sys2Proof.Machine
end

