-- ==== Sys2Proof/Machine/Move.lean ====
section
/-! DEFINITION. Moves and control-register access, group 0x03 (05_control_registers R148 to R150). -/

namespace Sys2Proof.Machine

/-- MOV among a-, b- and p-registers (R148). -/
def execMov (h : Head) (o : Ops) (s : State) :=
  scalarWord allStreams true (.mov h o) h s noHazard (fun s =>
    let v : Word := match o.a with
      | .a n => s.strm.readA n
      | .b n => s.strm.readB n
      | .p n => (bit (s.strm.readP n)).setWidth 64
      | _ => 0
    s.post 1 (match o.d with
      | .a n => s.landA n v
      | .b n => s.landB n v
      | .p n => s.landP n (v != 0)
      | _ => []))

/-- MOVI: sext, zext, or the upper half over the low half of d (R148). -/
def execMovi (h : Head) (o : Ops) (u hi : Bool) (s : State) :=
  scalarWord allStreams true (.movi h o u hi) h s noHazard (fun s =>
    let w : BitVec 32 := match o.a, o.c with
      | .imm v, _ => v.signExtend 32
      | _, .lit w => w
      | _, _ => 0
    let d := aReg o.d
    s.writeA 1 d (if hi then w ++ (s.strm.readA d).extractLsb' 0 32
      else if u then w.setWidth 64 else w.signExtend 64))

/-- SRD copies a control register into an a-register (R149, R162). -/
def execSrd (h : Head) (o : Ops) (s : State) :=
  scalarWord allStreams true (.srd h o) h s (crHazards (crNum o.a).toNat)
    (fun s => s.writeA 1 (aReg o.d) (s.srdVal (crNum o.a).toNat))

/-- SWR writes its source into the rw fields of a control register (R149, R162). -/
def execSwr (h : Head) (o : Ops) (s : State) :=
  scalarWord allStreams true (.swr h o) h s
    (fun s => crHazards (crNum o.d).toNat s ++ swrHazards (crNum o.d).toNat (s.intVal o.a o.c) s)
    (fun s => s.post 1 (s.swrLand (crNum o.d) (s.intVal o.a o.c)))

/-- ERET: cause 0x008 in the unprivileged view; on a steward core the return from a delivery (R150; 15_traps R381), whose
target is held to the rules of every steward target (R162). -/
def execEret (h : Head) (o : Ops) (s : State) :=
  scalarWord allStreams true (.eret h o) h s
    (fun s => when (!s.onSteward) 0x008 ++ when s.inDelaySlot 0x041
      ++ (match s.core with
          | .steward k => when (s.badTarget (s.steward k).epc false false) 0x047
          | .tile _ _ _ => []))
    (fun s => s.eretCore)

/-- FAN in native code: a guarded trap 0x00C (03_encoding R73, R83), also where bits [19:0], which R83 says must be zero, are not: R63's
lower 0x004 is taken as a rule of the portable form, whose fields a native word has not (DESIGN CHOICE, log entry 103). -/
def execFan (h : Head) (_rest : BitVec 80) (s : State) :=
  scalarWord allStreams true (.fan h _rest) h s (fun _ => [(0x00C, 0)]) id

end Sys2Proof.Machine
end

