-- ==== Sys2Proof/Machine/Predicate.lean ====
section
/-! DEFINITION. Predicate writes, group 0x06 (05_control_registers R152 to R154). -/

namespace Sys2Proof.Machine

/-- The condition of CMP (R152). -/
def cmpCond (cond : BitVec 4) (x y : Word) : Bool :=
  match cond.toNat with
  | 0 => x == y
  | 1 => x != y
  | 2 => decide (x.toInt < y.toInt)
  | 3 => decide (x.toInt ≤ y.toInt)
  | 4 => decide (y.toInt < x.toInt)
  | 5 => decide (y.toInt ≤ x.toInt)
  | 6 => decide (x.toNat < y.toNat)
  | 7 => decide (x.toNat ≤ y.toNat)
  | 8 => decide (y.toNat < x.toNat)
  | 9 => decide (y.toNat ≤ x.toNat)
  | 10 => x &&& y == 0
  | _ => x &&& y != 0

/-- CMP: the predicate pair takes the condition and its complement, plain, and-ed or or-ed (R152). -/
def execCmp (h : Head) (o : Ops) (pe cond : BitVec 4) (mode : BitVec 2) (s : State) :=
  scalarWord allStreams true (.cmp h o pe cond mode) h s noHazard (fun s =>
    let c := cmpCond cond (s.intVal o.a o.c) (s.intVal o.b o.c)
    let pd := pReg o.d
    let mix (old new : Bool) : Bool :=
      if mode = 0#2 then new else if mode = 1#2 then old && new else old || new
    s.post 1 (s.landP pd (mix (s.strm.readP pd) c) ++ s.landP pe (mix (s.strm.readP pe) (!c))))

/-- PSET: pd := f[2·pa + pb] and pe := not pd (R153). -/
def execPset (h : Head) (o : Ops) (pe : BitVec 4) (s : State) :=
  scalarWord allStreams true (.pset h o pe) h s noHazard (fun s =>
    let j := (if s.strm.readP (pReg o.a) then 2 else 0) + (if s.strm.readP (pReg o.b) then 1 else 0)
    let v := (immVal (cSel o.c)).toNat.testBit j
    s.post 1 (s.landP (pReg o.d) v ++ s.landP pe (!v)))

/-- PBC: a predicate of stream `strm` of the same tile takes ps, or not ps, at issue + 3, mapped through the target's rp
at issue (R154). -/
def execPbc (h : Head) (o : Ops) (strm : BitVec 4) (neg : Bool) (s : State) :=
  scalarWord allStreams true (.pbc h o strm neg) h s notOnSteward (fun s =>
    let pd := pReg o.d
    let v := s.strm.readP (pReg o.a) ^^ neg
    s.post 3 (if pd = 0 then [] else [.p strm.toNat ((s.curTile.strm strm.toNat).physP pd) v]))

end Sys2Proof.Machine
end

