-- ==== Sys2Proof/Machine/VectorArith.lean ====
section
/-! DEFINITION. Lane-by-lane vector words: floating arithmetic, minimum, maximum, compare and select, integer arithmetic
and dot product, MAJ 0x40, 0x41, 0x43 and 0x44, and the special functions, MAJ 0x60 (06_vector_rows R178 to R182, R187,
R188, R199, R200). -/

namespace Sys2Proof.Machine

/-- The streams of the two vector units. -/
def vectorUnits : List Nat := [3, 4]

/-- A lane-by-lane result of type `f`: the three operand fields read as `f`, `fn` applied to the elements of each active
lane (R174). -/
def laneComp (o : Ops) (f : BitVec 5) (ftz : Bool) (fn : State → Nat → Nat → Nat → Nat → Nat × List Nat) (g : QReg) (s : State) :
    Except Cause VOut :=
  match both (s.opnd o.a o.c f ftz) (both (s.opnd o.b o.c f ftz) (s.opnd (cSel o.c) o.c f ftz)) with
  | .error c => .error c
  | .ok (a, b, c) =>
    let on := activeLanes f g
    let (el, ev) := lanewise on (zeroOf f) a.el b.el c.el (fn s)
    .ok { f := f, el := el, act := g, evs := a.events on ++ b.events on ++ c.events on ++ ev }

/-- A lane-by-lane word whose function rounds: exact results in format `f`, rounded with the word's rm and ftz. -/
def roundComp (o : Ops) (m : VMod) (fn : Val → Val → Val → Exact) : QReg → State → Except Cause VOut :=
  laneComp o m.ty m.ftz (fun s i x y z =>
    let v (n : Nat) := decodeElem m.ty m.ftz 127 n
    finish m.ty m.rm.toNat m.ftz (s.srWord m.rm i) (fn (v x) (v y) (v z)))

/-- A floating word of MAJ 0x40 (R178). -/
def fpWord (i : Instr) (h : Head) (o : Ops) (m : VMod) (lat : Nat) (fn : Val → Val → Val → Exact) (s : State) :=
  vecWord vectorUnits i h lat o.d m (m.rm == 4) (roundComp o m fn) s

/-- A word whose function gives patterns. -/
def bitsWord (i : Instr) (h : Head) (o : Ops) (m : VMod) (lat : Nat) (fn : Nat → Nat → Nat × List Nat) (s : State) :=
  vecWord vectorUnits i h lat o.d m false (laneComp o m.ty m.ftz (fun _ _ x y _ => fn x y)) s

/-! ## MAJ 0x40 -/

def execVadd (h : Head) (o : Ops) (m : VMod) (s : State) :=
  fpWord (.vadd h o m) h o m 4 (fun a b _ => addV m.rm.toNat a b) s

/-- a − b is a plus b with its sign inverted. -/
def execVsub (h : Head) (o : Ops) (m : VMod) (s : State) :=
  fpWord (.vsub h o m) h o m 4 (fun a b _ => addV m.rm.toNat a b.negate) s

def execVmul (h : Head) (o : Ops) (m : VMod) (s : State) :=
  fpWord (.vmul h o m) h o m 4 (fun a b _ => mulV a b) s

def execVfma (h : Head) (o : Ops) (m : VMod) (s : State) :=
  fpWord (.vfma h o m) h o m 5 (fun a b c => fmaV m.rm.toNat a b c) s

def execVfms (h : Head) (o : Ops) (m : VMod) (s : State) :=
  fpWord (.vfms h o m) h o m 5 (fun a b c => fmaV m.rm.toNat a b c.negate) s

/-- The sign bit of an element of type `f`. -/
def signBit (f : BitVec 5) : Nat := 2 ^ (elemWidth f - 1)

/-- VNEG inverts the sign bit of the element as read (R179). -/
def execVneg (h : Head) (o : Ops) (m : VMod) (s : State) :=
  bitsWord (.vneg h o m) h o m 4 (fun x _ => ((x + signBit m.ty) % 2 ^ elemWidth m.ty, [])) s

/-- VABS clears it (R179). -/
def execVabs (h : Head) (o : Ops) (m : VMod) (s : State) :=
  bitsWord (.vabs h o m) h o m 4 (fun x _ => (x % signBit m.ty, [])) s

/-! ## MAJ 0x41 -/

def execVmin (h : Head) (o : Ops) (m : VMod) (s : State) := bitsWord (.vmin h o m) h o m 4 (minMax m.ty false false) s
def execVmax (h : Head) (o : Ops) (m : VMod) (s : State) := bitsWord (.vmax h o m) h o m 4 (minMax m.ty true false) s
def execVminn (h : Head) (o : Ops) (m : VMod) (s : State) := bitsWord (.vminn h o m) h o m 4 (minMax m.ty false true) s
def execVmaxn (h : Head) (o : Ops) (m : VMod) (s : State) := bitsWord (.vmaxn h o m) h o m 4 (minMax m.ty true true) s

/-- VMAXI: key_select with max (R180). -/
def execVmaxi (h : Head) (o : Ops) (m : VMod) (s : State) :=
  bitsWord (.vmaxi h o m) h o m 4 (fun x y => (keySelect true x y, [])) s

/-- VMINI: key_select with min (R180). -/
def execVmini (h : Head) (o : Ops) (m : VMod) (s : State) :=
  bitsWord (.vmini h o m) h o m 4 (fun x y => (keySelect false x y, [])) s

/-- The condition of VCMP on two values, with its events (R181). -/
def vcmpCond (cond : Nat) (a b : Val) : Bool × List Nat :=
  let nan := a.isNan || b.isNan
  let ev := if a.isSnan || b.isSnan then [0, 10] else if nan && 2 ≤ cond && cond ≤ 5 then [0] else []
  (match cond with
    | 6 => nan
    | 7 => !nan
    | _ =>
      if nan then cond == 1
      else match cond, cmpV a b with
        | 0, .eq => true
        | 1, .lt => true
        | 1, .gt => true
        | 2, .lt => true
        | 3, .lt => true
        | 3, .eq => true
        | 4, .gt => true
        | 5, .gt => true
        | 5, .eq => true
        | _, _ => false, ev)

/-- What VCMP computes: the condition by position, where it is written, and the events. -/
def vcmpComp (o : Ops) (m : VMod) (g : QReg) (s : State) : Except Cause (QReg × QReg × List Nat) :=
  match both (s.opnd o.a o.c m.ty m.ftz) (s.opnd o.b o.c m.ty m.ftz) with
  | .error c => .error c
  | .ok (a, b) =>
    let on := activeLanes m.ty g
    let rs := (on.zip ((a.vals m.ftz).zip (b.vals m.ftz))).map (fun (u, x, y) =>
      if u then vcmpCond m.rm.toNat x y else (false, []))
    let ev := rs.flatMap (fun r => r.2)
    .ok (lanesToQ m.ty (rs.map (fun r => r.1)), lanesToQ m.ty on, a.events on ++ b.events on ++ ev)

/-- The write of a lane predicate `n` of stream `k` (R167, R194): the positions of `mask` take `v`; the others are kept, or
cleared when `z`. q0 is not written. -/
def State.landQ (s : State) (k : Nat) (n : BitVec 4) (z : Bool) (mask v : QReg) : List Land :=
  if n = 0 then []
  else [.q k ((s.curTile.strm k).physP n) (if z then BitVec.allOnes 512 else mask) (v &&& mask)]

/-- VCMP (R181). -/
def execVcmp (h : Head) (o : Ops) (m : VMod) (s : State) :=
  laneWord vectorUnits (.vcmp h o m) h s (fun g s => causeIn (vcmpComp o m g s))
    (fun g s => match vcmpComp o m g s with
      | .error _ => s
      | .ok (v, mask, ev) =>
        let v := if m.x then v &&& s.strm.readQ (pReg o.d) else v
        s.post 4 (s.landQ s.strmNo (pReg o.d) m.z mask v) (tally ev))

/-- VSEL: the lane's bit of qs chooses a or b (R182). The events of reading both elements of an active lane count, the one
not chosen too. DESIGN CHOICE (log entry 64). -/
def execVsel (h : Head) (o : Ops) (m : VMod) (s : State) :=
  vecWord vectorUnits (.vsel h o m) h 4 o.d m false (fun g s =>
    match both (s.opnd o.a o.c m.ty m.ftz) (s.opnd o.b o.c m.ty m.ftz) with
    | .error c => .error c
    | .ok (a, b) =>
      let on := activeLanes m.ty g
      let qs := s.strm.readQ (pReg (cSel o.c))
      let (el, _) := lanewise on (zeroOf m.ty) a.el b.el a.el
        (fun i x y _ => (if qs.getLsbD (posOf m.ty i) then x else y, []))
      .ok { f := m.ty, el := el, act := g, evs := a.events on ++ b.events on }) s

/-! ## MAJ 0x43 -/

/-- VIADD, VISUB and VIMUL (R187). -/
def intVecWord (i : Instr) (h : Head) (o : Ops) (m : VMod) (fn : Int → Int → Int) (s : State) :=
  bitsWord i h o m 4 (fun x y => fitInt m.ty m.x (fn (intElem m.ty x) (intElem m.ty y))) s

def execViadd (h : Head) (o : Ops) (m : VMod) (s : State) := intVecWord (.viadd h o m) h o m (· + ·) s
def execVisub (h : Head) (o : Ops) (m : VMod) (s : State) := intVecWord (.visub h o m) h o m (· - ·) s
def execVimul (h : Head) (o : Ops) (m : VMod) (s : State) := intVecWord (.vimul h o m) h o m (· * ·) s
def execVand (h : Head) (o : Ops) (m : VMod) (s : State) :=
  bitsWord (.vand h o m) h o m 4 (fun x y => (Nat.land x y, [])) s
def execVor (h : Head) (o : Ops) (m : VMod) (s : State) := bitsWord (.vor h o m) h o m 4 (fun x y => (Nat.lor x y, [])) s
def execVxor (h : Head) (o : Ops) (m : VMod) (s : State) :=
  bitsWord (.vxor h o m) h o m 4 (fun x y => (Nat.xor x y, [])) s
def execVnot (h : Head) (o : Ops) (m : VMod) (s : State) :=
  bitsWord (.vnot h o m) h o m 4 (fun x _ => (2 ^ elemWidth m.ty - 1 - x, [])) s

/-- VSHL: 0 when the count is w or more. -/
def execVshl (h : Head) (o : Ops) (m : VMod) (s : State) :=
  bitsWord (.vshl h o m) h o m 4 (fun x n =>
    (if elemWidth m.ty ≤ n then 0 else x * 2 ^ n % 2 ^ elemWidth m.ty, [])) s

/-- VSHR: 0 when the count is w or more. -/
def execVshr (h : Head) (o : Ops) (m : VMod) (s : State) :=
  bitsWord (.vshr h o m) h o m 4 (fun x n => (if elemWidth m.ty ≤ n then 0 else x / 2 ^ n, [])) s

/-- VSAR: arithmetic for the signed types, VSHR for the unsigned. -/
def execVsar (h : Head) (o : Ops) (m : VMod) (s : State) :=
  bitsWord (.vsar h o m) h o m 4 (fun x n =>
    let w := elemWidth m.ty
    (if m.ty.toNat ≤ 4 then intBits w (sintOf w x / 2 ^ (min n (w - 1)))
     else if w ≤ n then 0 else x / 2 ^ n, [])) s

/-! ## MAJ 0x44 -/

/-- What VDOT computes (R188): the exact total of each group, saturated once to INT32. -/
def vdotComp (o : Ops) (m : VMod) (g : QReg) (s : State) : Except Cause VOut :=
  match both (s.opnd o.a o.c m.ty m.ftz) (both (s.opnd o.b o.c m.ty m.ftz) (s.opnd (cSel o.c) o.c 3)) with
  | .error c => .error c
  | .ok (a, b, c) =>
    let k := 2 ^ ((extra o.c).extractLsb' 0 4).toNat
    let n := lanes m.ty / k
    let on := activeLanes 3 g
    let used := ((on.take n).flatMap (fun u => List.replicate k u)) ++ List.replicate (lanes m.ty - n * k) false
    let prods : List Int := (a.el.zip b.el).map (fun (x, y) => intElem m.ty x * intElem m.ty y)
    let sums : List Int := (groupsOf k n prods).map (fun ps => ps.foldl (· + ·) 0)
    let all : List (Option Int) := (sums.map some ++ List.replicate 128 none).take 128
    let rs := (on.zip (all.zip c.el)).map (fun (u, t, z) => match u, t with
      | true, some t => fitInt 3 true (intElem 3 z + t)
      | _, _ => (0, []))
    .ok { f := 3, el := rs.map Prod.fst, act := g,
          evs := a.events used ++ b.events used ++ c.events (on.take n) ++ rs.flatMap Prod.snd }

def execVdot (h : Head) (o : Ops) (m : VMod) (s : State) :=
  vecWord vectorUnits (.vdot h o m) h 6 o.d m false (vdotComp o m) s

/-! ## MAJ 0x60 -/

/-- A special-function word (R199, R200). -/
def sfWord (i : Instr) (h : Head) (o : Ops) (m : VMod) (lat : Nat) (fn : SpecialFn) (s : State) :=
  vecWord [5] i h lat o.d m (m.rm == 4) (roundComp o m (fun a _ _ => fn.apply a)) s

def execFexp2 (h : Head) (o : Ops) (m : VMod) (s : State) := sfWord (.fexp2 h o m) h o m 10 .exp2 s
def execFlog2 (h : Head) (o : Ops) (m : VMod) (s : State) := sfWord (.flog2 h o m) h o m 10 .log2 s
def execFrcp (h : Head) (o : Ops) (m : VMod) (s : State) := sfWord (.frcp h o m) h o m 10 .rcp s
def execFrsq (h : Head) (o : Ops) (m : VMod) (s : State) := sfWord (.frsq h o m) h o m 10 .rsq s
def execFsqrt (h : Head) (o : Ops) (m : VMod) (s : State) := sfWord (.fsqrt h o m) h o m 10 .sqrt s
def execFsin (h : Head) (o : Ops) (m : VMod) (s : State) := sfWord (.fsin h o m) h o m 14 .sin s
def execFcos (h : Head) (o : Ops) (m : VMod) (s : State) := sfWord (.fcos h o m) h o m 14 .cos s
def execFtanh (h : Head) (o : Ops) (m : VMod) (s : State) := sfWord (.ftanh h o m) h o m 10 .tanh s
def execFsigm (h : Head) (o : Ops) (m : VMod) (s : State) := sfWord (.fsigm h o m) h o m 10 .sigm s
def execFerf (h : Head) (o : Ops) (m : VMod) (s : State) := sfWord (.ferf h o m) h o m 14 .erf s

end Sys2Proof.Machine
end

