-- ==== Sys2Proof/Machine/VectorMove.lean ====
section
/-! DEFINITION. Conversion, scaling, packing and tagging, data movement, reductions, scans, compaction, votes, lane
predicates, random numbers, hashing and attention triples: MAJ 0x42 and 0x45 to 0x49 (06_vector_rows R183 to R186, R189 to
R198). -/

namespace Sys2Proof.Machine

/-! ## MAJ 0x42 -/

/-- The values of a source row as VCVT converts them. A value that goes into ACC96 from another format counts the events of the
addition that places it; R183 names them for a source in ACC96 alone (DESIGN CHOICE, log entry 94). -/
def cvtOne (f : BitVec 5) (rm : Nat) (ftz : Bool) (src : Row) (a : Int) (u : Nat) (c : Nat) (v : Val × List Nat) :
    Nat × List Nat :=
  if src.md.tag = 23 then
    if f = 23 then
      let (x, ev) := accAdd (c / 2 ^ 104 % 16 * 2 ^ 104)
        (.fin (accInt c < 0) (accInt c).natAbs (src.md.anchor.toInt - 64) false) a
      (x, ev)
    else accOut f rm ftz u c src.md.anchor.toInt
  else if f = 23 then let (x, ev) := accAdd 0 v.1 a; (x, v.2 ++ ev)
  else convertTo f rm ftz u v.1

/-- What VCVT computes (R183). -/
def vcvtComp (o : Ops) (m : VMod) (g : QReg) (s : State) : Except Cause VOut :=
  match s.raw o.a with
  | .error c => .error c
  | .ok (src, once) =>
    let f := m.ty
    let t := src.md.tag
    let nf := lanes f
    let nt := lanes t
    let p := ((extra o.c).extractLsb' 0 5).toNat
    let anchor : BitVec 16 := if f = 23 then (s.intVal o.b o.c).extractLsb' 0 16 else 0
    let rm := m.rm.toNat
    if t = 0 then
      .ok { f := f, el := List.replicate nf (zeroOf f), anchor := anchor, act := g, evs := once }
    else if (if nf ≤ nt then nt / nf else nf / nt) ≤ p then .error 0x004
    else if t = 24 ∨ t = 25 then .error 0x00D
    else
      let on := activeLanes f g
      let first := if nf ≤ nt then 0 else p * nt
      let cnt := min nf nt
      let drop := if nf ≤ nt then p * nf else 0
      let inPart := (List.range nf).map (fun i => first ≤ i && i < first + cnt)
      let base : Except Cause Opnd := if nf ≤ nt || o.b == .none then .ok (zeroOpnd f) else s.opnd o.b o.c f m.ftz
      match base with
      | .error c => .error c
      | .ok b =>
        let vals := if t = 23 then sourceValues src m.ftz
          else (valuesOf t m.ftz src.md.scales (rowElems src)).map (fun v => (v, snanEvents [v]))
        let srcs := (((rowElems src).zip vals).drop drop).take cnt
        let onPart := (on.drop first).take cnt
        let (part, psc, pev) : List Nat × BitVec 256 × List Nat :=
          if blockScaled f then
            let vs := (srcs.zipIdx).map (fun (c, i) => (c.2.1, s.srWord m.rm (first + i)))
            let (el, sc, ev) := formBlocks f rm vs
            let evs := ((onPart.zip (srcs.zip el)).flatMap (fun (u, c, e) => if u then c.2.2 ++ e.2 else []))
              ++ ((groupsOf 32 ev.length onPart).zip ev).flatMap (fun (us, ev) => if us.any id then ev else [])
            (el.map Prod.fst, sc, evs)
          else
            let rs := ((onPart.zip srcs).zipIdx).map (fun ((u, c), i) =>
              if u then cvtOne f rm m.ftz src anchor.toInt (s.srWord m.rm (first + i)) c.1 c.2 else (zeroOf f, []))
            (rs.map Prod.fst, 0, rs.flatMap Prod.snd)
        let el := b.el.take first ++ part ++ b.el.drop (first + cnt)
        let sc := keepScales inPart (psc <<< (8 * (first / 32))) b.scales
        let used := (on.zip inPart).map (fun (u, w) => u && !w)
        .ok { f := f, el := el, scales := sc, anchor := anchor, act := g,
              evs := once ++ b.events used ++ pev }

def execVcvt (h : Head) (o : Ops) (m : VMod) (s : State) :=
  vecWord vectorUnits (.vcvt h o m) h 4 o.d m (m.rm == 4) (vcvtComp o m) s

/-- A value times 2^n. -/
def scaleVal (v : Val) (n : Int) : Val :=
  match v with
  | .fin neg m e st => .fin neg m (e + n) st
  | _ => v

/-- An integer limited to ±8,192, beyond which every result of VSCL is the one at the limit. -/
def clampExp (n : Int) : Int := max (-8192) (min 8192 n)

/-- One block of VSCL (R184): its scale, elements and events. -/
def vsclBlock (f : BitVec 5) (rm : Nat) (n : Int) (x : Nat) (es : List (Nat × Nat)) : Nat × List Nat × List Nat :=
  if x = 255 then (x, es.map (fun e => e.1), [])
  else if 0 ≤ (x : Int) + n ∧ (x : Int) + n ≤ 254 then (((x : Int) + n).toNat, es.map (fun e => e.1), [])
  else
    let (y, el, ev) := blockScale f rm (es.map (fun e => (scaleVal (decodeElem f false x e.1) (clampExp n), e.2)))
    (y, el.map Prod.fst, ev ++ el.flatMap Prod.snd)

/-- What VSCL computes (R184). -/
def vsclComp (o : Ops) (m : VMod) (g : QReg) (s : State) : Except Cause VOut :=
  match s.opnd o.a o.c m.ty m.ftz with
  | .error c => .error c
  | .ok a =>
    let f := m.ty
    let n := ((s.uintVal o.b o.c).extractLsb' 0 32).toInt
    let on := activeLanes f g
    if blockScaled f then
      let es := a.el.zipIdx.map (fun (x, i) => (x, s.srWord m.rm i))
      let bs := ((groupsOf 32 (lanes f / 32) es).zipIdx).map (fun (b, j) =>
        vsclBlock f m.rm.toNat n (scaleAt a.scales j) b)
      let ev := ((groupsOf 32 (lanes f / 32) on).zip bs).flatMap (fun (us, b) => if us.any id then b.2.2 else [])
      .ok { f := f, el := bs.flatMap (fun b => b.2.1), scales := BitVec.ofNat 256 (packElems 8 (bs.map (fun b => b.1))),
            act := g, evs := a.events on ++ ev }
    else
      let (el, ev) := lanewise on (zeroOf f) a.el a.el a.el (fun i x _ _ =>
        let v := decodeElem f m.ftz 127 x
        finish f m.rm.toNat m.ftz (s.srWord m.rm i)
          (match v with
            | .nan _ => nanResult false [v]
            | _ => (scaleVal v (clampExp n), [])))
      .ok { f := f, el := el, act := g, evs := a.events on ++ ev }

def execVscl (h : Head) (o : Ops) (m : VMod) (s : State) :=
  vecWord vectorUnits (.vscl h o m) h 4 o.d m (m.rm == 4) (vsclComp o m) s

/-- `use` with the lanes of `on` from lane `k` of `n` on. -/
def usedFrom (n k : Nat) (on : List Bool) : List Bool := (List.replicate k false ++ on ++ List.replicate n false).take n

/-- VPACK: the lower halves of a and b, or keys from values and indices (R185). -/
def vpackComp (o : Ops) (m : VMod) (g : QReg) (s : State) : Except Cause VOut :=
  let f := m.ty
  let on := activeLanes f g
  if m.x then
    let k := 64 * ((extra o.c).extractLsb' 0 1).toNat
    match both (s.opnd o.a o.c 12) (s.opnd o.b o.c 7) with
    | .error c => .error c
    | .ok (a, b) =>
      let used := usedFrom 128 k on
      .ok { f := f, el := (((a.el.drop k).take 64).zip ((b.el.drop k).take 64)).map (fun (x, y) => x * 2 ^ 32 + y),
            act := g, evs := a.events used ++ b.events used }
  else
    let l := lanes f / 2
    match both (s.opnd o.a o.c f m.ftz) (s.opnd o.b o.c f m.ftz) with
    | .error c => .error c
    | .ok (a, b) =>
      .ok { f := f, el := a.el.take l ++ b.el.take l, act := g,
            evs := a.events (on.take l) ++ b.events (on.drop l) }

def execVpack (h : Head) (o : Ops) (m : VMod) (s : State) :=
  vecWord vectorUnits (.vpack h o m) h 4 o.d m false (vpackComp o m) s

/-- VUNPK: the upper half of a, or the values or indices of keys (R185). -/
def vunpkComp (o : Ops) (m : VMod) (g : QReg) (s : State) : Except Cause VOut :=
  let f := m.ty
  let on := activeLanes f g
  if m.x then
    let k := 64 * ((extra o.c).extractLsb' 0 1).toNat
    match s.opnd o.a o.c 24 with
    | .error c => .error c
    | .ok a =>
      let part := a.el.map (fun x => if f = 12 then x / 2 ^ 32 else x % 2 ^ 32)
      let z := List.replicate 64 (zeroOf f)
      .ok { f := f, el := if k = 0 then part ++ z else z ++ part, act := g, evs := a.events ((on.drop k).take 64) }
  else
    let l := lanes f / 2
    match s.opnd o.a o.c f m.ftz with
    | .error c => .error c
    | .ok a =>
      .ok { f := f, el := a.el.drop l ++ List.replicate l (zeroOf f), anchor := a.anchor, act := g,
            evs := a.events (usedFrom (lanes f) l (on.take l)) }

def execVunpk (h : Head) (o : Ops) (m : VMod) (s : State) :=
  vecWord vectorUnits (.vunpk h o m) h 4 o.d m false (vunpkComp o m) s

/-- VTAG: the same bytes under another tag (R186). With tag ACC96 the bits [127:108] of a slot, which 07_accumulators Table 1 calls zero,
are kept as they stand, and MRD.acc96 copies them (DESIGN CHOICE, log entry 106). -/
def vtagComp (o : Ops) (m : VMod) (g : QReg) (s : State) : Except Cause VOut :=
  match s.raw o.a with
  | .error c => .error c
  | .ok (a, once) =>
    let t := a.md.tag
    .ok { f := m.ty, el := elems (elemWidth m.ty) (lanes m.ty) a.data.toNat,
          anchor := if m.ty = 23 ∧ t = 23 then a.md.anchor else 0,
          scales := if blockScaled t then a.md.scales else 0, act := g, evs := once }

def execVtag (h : Head) (o : Ops) (m : VMod) (s : State) :=
  vecWord vectorUnits (.vtag h o m) h 4 o.d m false (vtagComp o m) s

/-! ## MAJ 0x45 -/

/-- VMOV: row_as(a, f) (R189). -/
def vmovComp (o : Ops) (m : VMod) (g : QReg) (s : State) : Except Cause VOut :=
  match s.opnd o.a o.c m.ty m.ftz with
  | .error c => .error c
  | .ok a =>
    .ok { f := m.ty, el := a.el, scales := a.scales, anchor := a.anchor, act := g,
          evs := a.events (activeLanes m.ty g) }

def execVmov (h : Head) (o : Ops) (m : VMod) (s : State) :=
  vecWord vectorUnits (.vmov h o m) h 4 o.d m false (vmovComp o m) s

/-- VLIT: a literal or immediate in every lane, an index ramp, or keys (R189). -/
def vlitComp (o : Ops) (m : VMod) (g : QReg) (_ : State) : Except Cause VOut :=
  let f := m.ty
  if f = 24 then
    .ok { f := f, el := ((scalarOpnd 12 o.a o.c).el.take 64).map (fun x => x * 2 ^ 32), act := g, evs := [] }
  else
    let a := scalarOpnd f o.a o.c
    .ok { f := f, el := if m.x then a.el.zipIdx.map (fun (x, i) => (x + i) % 2 ^ elemWidth f) else a.el, act := g,
          evs := a.events (activeLanes f g) }

def execVlit (h : Head) (o : Ops) (m : VMod) (s : State) :=
  vecWord vectorUnits (.vlit h o m) h 4 o.d m false (vlitComp o m) s

/-- The same scale in every block of format `f`. -/
def sameScale (f : BitVec 5) (x : Nat) : BitVec 256 :=
  if blockScaled f then BitVec.ofNat 256 (packElems 8 (List.replicate (lanes f / 32) x)) else 0

/-- VBCST: a register or one element of a row in every lane (R189). -/
def vbcstComp (o : Ops) (m : VMod) (g : QReg) (s : State) : Except Cause VOut :=
  let f := m.ty
  match o.a with
  | .a n =>
    let v := (s.strm.readA n).toNat
    let w := elemWidth f
    let e := if blockScaled f ∧ f ≠ 15 then intBits w (sintOf (bfpBits f) (v % 2 ^ bfpBits f)) else v % 2 ^ w
    .ok { f := f, el := List.replicate (lanes f) e, scales := sameScale f (v / 256 % 256), act := g, evs := [] }
  | _ =>
    match s.opnd o.a o.c f m.ftz with
    | .error c => .error c
    | .ok a =>
      let k := (s.uintVal o.b o.c).toNat % lanes f
      let used := usedFrom (lanes f) k [(activeLanes f g).any id]
      .ok { f := f, el := List.replicate (lanes f) ((a.el[k]?).getD 0), scales := sameScale f (scaleAt a.scales (k / 32)),
            anchor := a.anchor, act := g, evs := a.events used }

def execVbcst (h : Head) (o : Ops) (m : VMod) (s : State) :=
  vecWord vectorUnits (.vbcst h o m) h 4 o.d m false (vbcstComp o m) s

/-- Which of `n` elements some active lane picks. -/
def pickedOf (n : Nat) (on : List Bool) (idx : List Nat) : List Bool :=
  let hits := (on.zip idx).filterMap (fun (u, k) => if u then some k else none)
  (List.range n).map hits.contains

/-- VPERM: element b[i] of a (R190). -/
def vpermComp (o : Ops) (m : VMod) (g : QReg) (s : State) : Except Cause VOut :=
  let f := m.ty
  match both (s.opnd o.a o.c f m.ftz) (s.opnd o.b o.c 6) with
  | .error c => .error c
  | .ok (a, b) =>
    let on := activeLanes f g
    let src := a.el.toArray
    .ok { f := f, el := (b.el.take (lanes f)).map (fun k => src.getD k (zeroOf f)), anchor := a.anchor, act := g,
          evs := a.events (pickedOf (lanes f) on b.el) ++ b.events (usedFrom 256 0 on) }

def execVperm (h : Head) (o : Ops) (m : VMod) (s : State) :=
  vecWord vectorUnits (.vperm h o m) h 6 o.d m false (vpermComp o m) s

/-- VSHF: the elements of a and b moved down by n (R190). -/
def vshfComp (o : Ops) (m : VMod) (g : QReg) (s : State) : Except Cause VOut :=
  let f := m.ty
  match both (s.opnd o.a o.c f m.ftz) (s.opnd o.b o.c f m.ftz) with
  | .error c => .error c
  | .ok (a, b) =>
    let l := lanes f
    let n := min (s.uintVal (cSel o.c) o.c).toNat (2 * l)
    let used := usedFrom (2 * l) n (activeLanes f g)
    .ok { f := f, el := ((a.el ++ b.el).drop n ++ List.replicate (2 * l) (zeroOf f)).take l, act := g,
          evs := a.events (used.take l) ++ b.events (used.drop l) }

def execVshf (h : Head) (o : Ops) (m : VMod) (s : State) :=
  vecWord vectorUnits (.vshf h o m) h 6 o.d m false (vshfComp o m) s

/-! ## MAJ 0x46 -/

/-- The node of the tree of VRED and VSCAN (Table 11), given (lo + hi) div 2 of its span (R191). -/
def redNode (op : Nat) (f : BitVec 5) (rm : Nat) (ftz : Bool) (draw : Nat → Nat) (mid l r : Nat) : Nat × List Nat :=
  match op with
  | 0 =>
    if f = 23 then
      (Nat.lor (l / 2 ^ 104 % 16) (r / 2 ^ 104 % 16) * 2 ^ 104 + (l + r) % 2 ^ 104, [])
    else if isInt f then fitInt f false (intElem f l + intElem f r)
    else finish f rm ftz (draw mid) (addV rm (decodeElem f ftz 127 l) (decodeElem f ftz 127 r))
  | 1 => minMax f true false l r
  | 2 => minMax f false false l r
  | 3 => minMax f true true l r
  | 4 => minMax f false true l r
  | 5 => (keySelect true l r, [])
  | 6 => (keySelect false l r, [])
  | 7 => (Nat.land l r, [])
  | 8 => (Nat.lor l r, [])
  | _ => (Nat.xor l r, [])

/-- The node function of a word. -/
def State.wordNode (s : State) (o : Ops) (m : VMod) : Nat → Nat → Nat → Nat × List Nat :=
  redNode ((extra o.c).extractLsb' 0 4).toNat m.ty m.rm.toNat m.ftz (fun e => s.srWord m.rm e)

/-- The operands of a tree: suppressed lanes are absent. -/
def present (on : List Bool) (xs : List Nat) : List (Option Nat) :=
  (on.zip xs).map (fun (u, x) => if u then some x else none)

/-- VRED: the tree over the active lanes in lane 0 (R191). -/
def vredComp (o : Ops) (m : VMod) (g : QReg) (s : State) : Except Cause VOut :=
  let f := m.ty
  match s.opnd o.a o.c f m.ftz with
  | .error c => .error c
  | .ok a =>
    let on := activeLanes f g
    let (v, ev) := canonicalTree (s.wordNode o m) (present on a.el)
    .ok { f := f, el := v.getD (zeroOf f) :: List.replicate (lanes f - 1) (zeroOf f), anchor := a.anchor,
          act := BitVec.allOnes 512, evs := a.events on ++ ev }

def execVred (h : Head) (o : Ops) (m : VMod) (s : State) :=
  vecWord vectorUnits (.vred h o m) h 10 o.d m (m.rm == 4) (vredComp o m) s

/-- VSCAN: the tree over lanes 0 to i, or 0 to i − 1, in each active lane (R191). -/
def vscanComp (o : Ops) (m : VMod) (g : QReg) (s : State) : Except Cause VOut :=
  let f := m.ty
  match s.opnd o.a o.c f m.ftz with
  | .error c => .error c
  | .ok a =>
    let on := activeLanes f g
    let xs := present on a.el
    let rs := on.zipIdx.map (fun (u, i) =>
      if u then
        let (v, ev) := canonicalTree (s.wordNode o m) (xs.take (if m.x then i else i + 1))
        (v.getD (zeroOf f), ev)
      else (zeroOf f, []))
    let last := (on.zipIdx.filter (fun p => p.1)).foldl (fun _ p => p.2) 0
    let used := on.zipIdx.map (fun (u, i) => u && (!m.x || i < last))
    .ok { f := f, el := rs.map Prod.fst, anchor := a.anchor, act := g, evs := a.events used ++ rs.flatMap Prod.snd }

def execVscan (h : Head) (o : Ops) (m : VMod) (s : State) :=
  vecWord vectorUnits (.vscan h o m) h 12 o.d m (m.rm == 4) (vscanComp o m) s

/-- VCMPT: the active lanes moved to the front (R192). -/
def vcmptComp (o : Ops) (m : VMod) (g : QReg) (s : State) : Except Cause VOut :=
  let f := m.ty
  match s.opnd o.a o.c f m.ftz with
  | .error c => .error c
  | .ok a =>
    let on := activeLanes f g
    let kept := (present on a.el).filterMap id
    .ok { f := f, el := (kept ++ List.replicate (lanes f) (zeroOf f)).take (lanes f), anchor := a.anchor,
          act := BitVec.allOnes 512, evs := a.events on }

def execVcmpt (h : Head) (o : Ops) (m : VMod) (s : State) :=
  vecWord vectorUnits (.vcmpt h o m) h 12 o.d m false (vcmptComp o m) s

/-! ## MAJ 0x47 -/

/-- The p register a vote writes (R193). -/
def voteDest (o : Ops) : BitVec 4 := (extra o.c).extractLsb' 0 4

/-- VANY: the OR of qs over the guard's positions (R193). -/
def execVany (h : Head) (o : Ops) (s : State) :=
  laneWord vectorUnits (.vany h o) h s (fun _ _ => [])
    (fun g s => s.post 2 (s.landP (voteDest o) (g &&& s.strm.readQ (pReg o.a) != 0)))

/-- VALL: the AND of qs over the guard's positions (R193). -/
def execVall (h : Head) (o : Ops) (s : State) :=
  laneWord vectorUnits (.vall h o) h s (fun _ _ => [])
    (fun g s => s.post 2 (s.landP (voteDest o) (g &&& s.strm.readQ (pReg o.a) == g)))

/-- VPOPC: how many lanes have both the guard and qs true (R193). -/
def execVpopc (h : Head) (o : Ops) (ty : BitVec 5) (s : State) :=
  laneWord vectorUnits (.vpopc h o ty) h s (fun _ _ => [])
    (fun g s =>
      let q := g &&& s.strm.readQ (pReg o.a)
      let n := ((List.range (lanes ty)).filter (fun i => q.getLsbD (i * 512 / lanes ty))).length
      s.writeA 2 (aReg o.d) (BitVec.ofNat 64 n))

/-- QSET.len: the lowest n lanes (R194). -/
def execQsetLen (h : Head) (o : Ops) (z : Bool) (ty : BitVec 5) (s : State) :=
  laneWord vectorUnits (.qsetLen h o z ty) h s (fun _ _ => [])
    (fun g s =>
      let n := (s.uintVal o.a o.c).toNat
      let v := BitVec.ofNat 512 (packElems 1 ((List.range 512).map (fun j => if j * lanes ty / 512 < n then 1 else 0)))
      s.post 2 (s.landQ s.strmNo (pReg o.d) z g v))

/-- QSET.bc: a ≠ 0 at every position (R194). -/
def execQsetBc (h : Head) (o : Ops) (z : Bool) (s : State) :=
  laneWord vectorUnits (.qsetBc h o z) h s (fun _ _ => [])
    (fun g s => s.post 2 (s.landQ s.strmNo (pReg o.d) z g
      (if s.strm.readA (aReg o.a) = 0 then 0 else BitVec.allOnes 512)))

/-- QSET.fn: a function of two lane predicates (R194). -/
def execQsetFn (h : Head) (o : Ops) (z : Bool) (s : State) :=
  laneWord vectorUnits (.qsetFn h o z) h s (fun _ _ => [])
    (fun g s =>
      let f := BitVec.ofInt 4 (immVal (cSel o.c))
      let a := s.strm.readQ (pReg o.a)
      let b := s.strm.readQ (pReg o.b)
      let pick (i : Nat) (x y : QReg) : QReg := if f.getLsbD i then x &&& y else 0
      let v := pick 0 (~~~a) (~~~b) ||| pick 1 (~~~a) b ||| pick 2 a (~~~b) ||| pick 3 a b
      s.post 2 (s.landQ s.strmNo (pReg o.d) z g v))

/-- QSET.copy: into the same-named predicate of another unit, 3 tc later (R194). -/
def execQsetCopy (h : Head) (o : Ops) (z : Bool) (s : State) :=
  laneWord vectorUnits (.qsetCopy h o z) h s (fun _ _ => [])
    (fun g s => s.post 3 (s.landQ ((extra o.c).extractLsb' 0 4).toNat (pReg o.d) z g (s.strm.readQ (pReg o.a))))

/-! ## MAJ 0x48 -/

/-- VRNG: the Philox word of each active lane (R195). -/
def vrngComp (m : VMod) (g : QReg) (s : State) : Except Cause VOut :=
  let el := (activeLanes m.ty g).zipIdx.map (fun (u, i) =>
    if u then
      let w := s.drawWord i
      if m.ty = 7 then w else (roundTo 12 0 false 0 (.fin false (w / 256) (-24) false)).1
    else 0)
  .ok { f := m.ty, el := el, act := g, evs := [] }

def execVrng (h : Head) (o : Ops) (m : VMod) (s : State) :=
  vecWord vectorUnits (.vrng h o m) h 4 o.d m true (vrngComp m) s

/-- The hash of R196. -/
def hashOf (a b seed : BitVec 32) : BitVec 32 :=
  let x := a ^^^ (b.extractLsb' 0 16 ++ b.extractLsb' 16 16) ^^^ seed
  let x := x ^^^ (x >>> 16)
  let x := x * 0x9E3B6C5D#32
  let x := x ^^^ (x >>> 13)
  let x := x * 0x85A32F1B#32
  x ^^^ (x >>> 16)

/-- VHSH (R196). -/
def vhshComp (o : Ops) (m : VMod) (g : QReg) (s : State) : Except Cause VOut :=
  match both (s.opnd o.a o.c m.ty m.ftz) (s.opnd o.b o.c m.ty m.ftz) with
  | .error c => .error c
  | .ok (a, b) =>
    let on := activeLanes m.ty g
    let seed := (s.intVal (cSel o.c) o.c).extractLsb' 0 32
    let (el, ev) := lanewise on 0 a.el b.el a.el (fun _ x y _ =>
      ((hashOf (BitVec.ofNat 32 x) (BitVec.ofNat 32 y) seed).toNat, []))
    .ok { f := m.ty, el := el, act := g, evs := a.events on ++ b.events on ++ ev }

def execVhsh (h : Head) (o : Ops) (m : VMod) (s : State) :=
  vecWord vectorUnits (.vhsh h o m) h 4 o.d m false (vhshComp o m) s

/-! ## MAJ 0x49 -/

/-- The triple a record row holds (R197). -/
def recordOf (el : List Nat) : Triple := { m := el.headD 0, s := (el.drop 1).headD 0, v := el.drop 2 }

/-- Every position when position 0 is active: a record is written whole (R198). With position 0 suppressed no lane is written, and
the merge of R175 with none is all that happens: the row is converted, or raises 0x00D. R198 does not say (DESIGN CHOICE, log entry
94). -/
def wholeRecord (g : QReg) : QReg := if g.getLsbD 0 then BitVec.allOnes 512 else 0

/-- VATC (R198). -/
def vatcComp (o : Ops) (m : VMod) (g : QReg) (s : State) : Except Cause VOut :=
  let f := m.ty
  match both (s.opnd o.a o.c f m.ftz) (s.opnd o.b o.c f m.ftz) with
  | .error c => .error c
  | .ok (a, b) =>
    if f = 12 then
      let on := List.replicate 128 (g.getLsbD 0)
      let (t, ev) := combine (recordOf a.el) (recordOf b.el)
      .ok { f := f, el := t.m :: t.s :: t.v, act := wholeRecord g,
            evs := a.events on ++ b.events on ++ (if g.getLsbD 0 then ev else []) }
    else
      let on := activeLanes f g
      let pair (x : Nat) : Triple := { m := x % 2 ^ 32, s := x / 2 ^ 32, v := [] }
      let (el, ev) := lanewise on (zeroOf f) a.el b.el a.el (fun _ x y _ =>
        let (t, ev) := combine (pair x) (pair y)
        (t.m + t.s * 2 ^ 32, ev))
      .ok { f := f, el := el, act := g, evs := a.events on ++ b.events on ++ ev }

def execVatc (h : Head) (o : Ops) (m : VMod) (s : State) :=
  vecWord vectorUnits (.vatc h o m) h 9 o.d m false (vatcComp o m) s

/-- VATF (R198). -/
def vatfComp (o : Ops) (g : QReg) (s : State) : Except Cause VOut :=
  match s.opnd o.a o.c 12 with
  | .error c => .error c
  | .ok a =>
    let u := g.getLsbD 0
    let (v, ev) := finalize (recordOf a.el)
    .ok { f := 12, el := v ++ [0, 0], act := wholeRecord g,
          evs := a.events (false :: List.replicate 127 u) ++ (if u then ev else []) }

def execVatf (h : Head) (o : Ops) (m : VMod) (s : State) :=
  vecWord vectorUnits (.vatf h o m) h 9 o.d m false (vatfComp o) s

end Sys2Proof.Machine
end

