-- ==== Sys2Proof/Machine/Dispatch.lean ====
section
/-! DEFINITION. One arm per constructor of `Instr`: the meaning of each row of spec/opcode_table.json. -/

namespace Sys2Proof.Machine

def exec (i : Instr) (s : State) : Host.Outcome State Fault Refusal :=
  match i with
  | .nop h o => Sys2Proof.Machine.execNop h o s
  | .wait h o => Sys2Proof.Machine.execWait h o s
  | .halt h o => Sys2Proof.Machine.execHalt h o s
  | .btgt h o fn => Sys2Proof.Machine.execBtgt h o fn s
  | .br h o => Sys2Proof.Machine.execBr h o s
  | .call h o => Sys2Proof.Machine.execCall h o s
  | .ret h o => Sys2Proof.Machine.execRet h o s
  | .rdv h o bay step => Sys2Proof.Machine.execRdv h o bay step s
  | .safe h o => Sys2Proof.Machine.execSafe h o s
  | .holdTok h o => Sys2Proof.Machine.execHoldTok h o s
  | .holdSem h o => Sys2Proof.Machine.execHoldSem h o s
  | .holdBc h o => Sys2Proof.Machine.execHoldBc h o s
  | .holdStep h o => Sys2Proof.Machine.execHoldStep h o s
  | .holdCol h o => Sys2Proof.Machine.execHoldCol h o s
  | .trap h o => Sys2Proof.Machine.execTrap h o s
  | .sysc h o => Sys2Proof.Machine.execSysc h o s
  | .lpset h o => Sys2Proof.Machine.execLpset h o s
  | .lpend h o => Sys2Proof.Machine.execLpend h o s
  | .lndef h o => Sys2Proof.Machine.execLndef h o s
  | .lngo h o => Sys2Proof.Machine.execLngo h o s
  | .lnnext h o => Sys2Proof.Machine.execLnnext h o s
  | .mov h o => Sys2Proof.Machine.execMov h o s
  | .movi h o u hi => Sys2Proof.Machine.execMovi h o u hi s
  | .srd h o => Sys2Proof.Machine.execSrd h o s
  | .swr h o => Sys2Proof.Machine.execSwr h o s
  | .eret h o => Sys2Proof.Machine.execEret h o s
  | .fan h rest => Sys2Proof.Machine.execFan h rest s
  | .add h o => Sys2Proof.Machine.execAdd h o s
  | .sub h o => Sys2Proof.Machine.execSub h o s
  | .and h o => Sys2Proof.Machine.execAnd h o s
  | .or h o => Sys2Proof.Machine.execOr h o s
  | .xor h o => Sys2Proof.Machine.execXor h o s
  | .andn h o => Sys2Proof.Machine.execAndn h o s
  | .shl h o => Sys2Proof.Machine.execShl h o s
  | .shr h o => Sys2Proof.Machine.execShr h o s
  | .sar h o => Sys2Proof.Machine.execSar h o s
  | .min h o => Sys2Proof.Machine.execMin h o s
  | .max h o => Sys2Proof.Machine.execMax h o s
  | .minu h o => Sys2Proof.Machine.execMinu h o s
  | .maxu h o => Sys2Proof.Machine.execMaxu h o s
  | .sel h o => Sys2Proof.Machine.execSel h o s
  | .mul h o => Sys2Proof.Machine.execMul h o s
  | .mulh h o u => Sys2Proof.Machine.execMulh h o u s
  | .div h o u => Sys2Proof.Machine.execDiv h o u s
  | .rem h o u => Sys2Proof.Machine.execRem h o u s
  | .clz h o => Sys2Proof.Machine.execClz h o s
  | .popc h o => Sys2Proof.Machine.execPopc h o s
  | .ext h o sx => Sys2Proof.Machine.execExt h o sx s
  | .ins h o => Sys2Proof.Machine.execIns h o s
  | .cmp h o pe cond mode => Sys2Proof.Machine.execCmp h o pe cond mode s
  | .pset h o pe => Sys2Proof.Machine.execPset h o pe s
  | .pbc h o strm neg => Sys2Proof.Machine.execPbc h o strm neg s
  | .semw h o => Sys2Proof.Machine.execSemw h o s
  | .sems h o tok kt => Sys2Proof.Machine.execSems h o tok kt s
  | .mtxl h o => Sys2Proof.Machine.execMtxl h o s
  | .mtxu h o tok kt => Sys2Proof.Machine.execMtxu h o tok kt s
  | .ldl h o g w sx => Sys2Proof.Machine.execLdl h o g w sx s
  | .stl h o g w => Sys2Proof.Machine.execStl h o g w s
  | .brd h o g chk => Sys2Proof.Machine.execBrd h o g chk s
  | .bwr h o g => Sys2Proof.Machine.execBwr h o g s
  | .brds h o g w sx => Sys2Proof.Machine.execBrds h o g w sx s
  | .bgth h o g chk => Sys2Proof.Machine.execBgth h o g chk s
  | .bsct h o g ty => Sys2Proof.Machine.execBsct h o g ty s
  | .bfill h o g ty => Sys2Proof.Machine.execBfill h o g ty s
  | .bchk h o g => Sys2Proof.Machine.execBchk h o g s
  | .batm h o g ty => Sys2Proof.Machine.execBatm h o g ty s
  | .gld h o kd g => Sys2Proof.Machine.execGld h o kd g s
  | .gst h o kd g => Sys2Proof.Machine.execGst h o kd g s
  | .gcpy h o kd => Sys2Proof.Machine.execGcpy h o kd s
  | .gpf h o kd => Sys2Proof.Machine.execGpf h o kd s
  | .ginv h o kd => Sys2Proof.Machine.execGinv h o kd s
  | .gwb h o kd => Sys2Proof.Machine.execGwb h o kd s
  | .ggth h o kd g => Sys2Proof.Machine.execGgth h o kd g s
  | .gsct h o kd g => Sys2Proof.Machine.execGsct h o kd g s
  | .gatm h o kd g ret => Sys2Proof.Machine.execGatm h o kd g ret s
  | .glev h o kd => Sys2Proof.Machine.execGlev h o kd s
  | .acq h o kd scope => Sys2Proof.Machine.execAcq h o kd scope s
  | .rel h o kd scope => Sys2Proof.Machine.execRel h o kd scope s
  | .fence h o kd scope => Sys2Proof.Machine.execFence h o kd scope s
  | .bind h o => Sys2Proof.Machine.execBind h o s
  | .st64 h o => Sys2Proof.Machine.execSt64 h o s
  | .waita h o cond => Sys2Proof.Machine.execWaita h o cond s
  | .vadd h o m => Sys2Proof.Machine.execVadd h o m s
  | .vsub h o m => Sys2Proof.Machine.execVsub h o m s
  | .vmul h o m => Sys2Proof.Machine.execVmul h o m s
  | .vfma h o m => Sys2Proof.Machine.execVfma h o m s
  | .vfms h o m => Sys2Proof.Machine.execVfms h o m s
  | .vneg h o m => Sys2Proof.Machine.execVneg h o m s
  | .vabs h o m => Sys2Proof.Machine.execVabs h o m s
  | .vmin h o m => Sys2Proof.Machine.execVmin h o m s
  | .vmax h o m => Sys2Proof.Machine.execVmax h o m s
  | .vminn h o m => Sys2Proof.Machine.execVminn h o m s
  | .vmaxn h o m => Sys2Proof.Machine.execVmaxn h o m s
  | .vmaxi h o m => Sys2Proof.Machine.execVmaxi h o m s
  | .vmini h o m => Sys2Proof.Machine.execVmini h o m s
  | .vcmp h o m => Sys2Proof.Machine.execVcmp h o m s
  | .vsel h o m => Sys2Proof.Machine.execVsel h o m s
  | .vcvt h o m => Sys2Proof.Machine.execVcvt h o m s
  | .vscl h o m => Sys2Proof.Machine.execVscl h o m s
  | .vpack h o m => Sys2Proof.Machine.execVpack h o m s
  | .vunpk h o m => Sys2Proof.Machine.execVunpk h o m s
  | .vtag h o m => Sys2Proof.Machine.execVtag h o m s
  | .viadd h o m => Sys2Proof.Machine.execViadd h o m s
  | .visub h o m => Sys2Proof.Machine.execVisub h o m s
  | .vimul h o m => Sys2Proof.Machine.execVimul h o m s
  | .vand h o m => Sys2Proof.Machine.execVand h o m s
  | .vor h o m => Sys2Proof.Machine.execVor h o m s
  | .vxor h o m => Sys2Proof.Machine.execVxor h o m s
  | .vnot h o m => Sys2Proof.Machine.execVnot h o m s
  | .vshl h o m => Sys2Proof.Machine.execVshl h o m s
  | .vshr h o m => Sys2Proof.Machine.execVshr h o m s
  | .vsar h o m => Sys2Proof.Machine.execVsar h o m s
  | .vdot h o m => Sys2Proof.Machine.execVdot h o m s
  | .vmov h o m => Sys2Proof.Machine.execVmov h o m s
  | .vlit h o m => Sys2Proof.Machine.execVlit h o m s
  | .vbcst h o m => Sys2Proof.Machine.execVbcst h o m s
  | .vperm h o m => Sys2Proof.Machine.execVperm h o m s
  | .vshf h o m => Sys2Proof.Machine.execVshf h o m s
  | .vred h o m => Sys2Proof.Machine.execVred h o m s
  | .vscan h o m => Sys2Proof.Machine.execVscan h o m s
  | .vcmpt h o m => Sys2Proof.Machine.execVcmpt h o m s
  | .vany h o => Sys2Proof.Machine.execVany h o s
  | .vall h o => Sys2Proof.Machine.execVall h o s
  | .vpopc h o ty => Sys2Proof.Machine.execVpopc h o ty s
  | .qsetLen h o z ty => Sys2Proof.Machine.execQsetLen h o z ty s
  | .qsetBc h o z => Sys2Proof.Machine.execQsetBc h o z s
  | .qsetFn h o z => Sys2Proof.Machine.execQsetFn h o z s
  | .qsetCopy h o z => Sys2Proof.Machine.execQsetCopy h o z s
  | .vrng h o m => Sys2Proof.Machine.execVrng h o m s
  | .vhsh h o m => Sys2Proof.Machine.execVhsh h o m s
  | .vatc h o m => Sys2Proof.Machine.execVatc h o m s
  | .vatf h o m => Sys2Proof.Machine.execVatf h o m s
  | .fexp2 h o m => Sys2Proof.Machine.execFexp2 h o m s
  | .flog2 h o m => Sys2Proof.Machine.execFlog2 h o m s
  | .frcp h o m => Sys2Proof.Machine.execFrcp h o m s
  | .frsq h o m => Sys2Proof.Machine.execFrsq h o m s
  | .fsqrt h o m => Sys2Proof.Machine.execFsqrt h o m s
  | .fsin h o m => Sys2Proof.Machine.execFsin h o m s
  | .fcos h o m => Sys2Proof.Machine.execFcos h o m s
  | .ftanh h o m => Sys2Proof.Machine.execFtanh h o m s
  | .fsigm h o m => Sys2Proof.Machine.execFsigm h o m s
  | .ferf h o m => Sys2Proof.Machine.execFerf h o m s
  | .xbmp h o slot g => Sys2Proof.Machine.execXbmp h o slot g s
  | .xrle h o slot g => Sys2Proof.Machine.execXrle h o slot g s
  | .xcsr h o slot g => Sys2Proof.Machine.execXcsr h o slot g s
  | .xidx h o slot g ty => Sys2Proof.Machine.execXidx h o slot g ty s
  | .xrate h o => Sys2Proof.Machine.execXrate h o s
  | .xoff h o strict => Sys2Proof.Machine.execXoff h o strict s
  | .xend h o => Sys2Proof.Machine.execXend h o s
  | .xcnt h o => Sys2Proof.Machine.execXcnt h o s
  | .mzero h o => Sys2Proof.Machine.execMzero h o s
  | .manc h o => Sys2Proof.Machine.execManc h o s
  | .mldb h o m => Sys2Proof.Machine.execMldb h o m s
  | .mma h o m => Sys2Proof.Machine.execMma h o m s
  | .mmas h o m => Sys2Proof.Machine.execMmas h o m s
  | .mmat h o m => Sys2Proof.Machine.execMmat h o m s
  | .mrd h o m => Sys2Proof.Machine.execMrd h o m s
  | .mwr h o m => Sys2Proof.Machine.execMwr h o m s
  | .macc h o m => Sys2Proof.Machine.execMacc h o m s
  | .xsnd h o => Sys2Proof.Machine.execXsnd h o s
  | .xrcv h o => Sys2Proof.Machine.execXrcv h o s
  | .pfi h min rest => Sys2Proof.Machine.execPfi h min rest s
  | .hnt h maj min rest => Sys2Proof.Machine.execHnt h maj min rest s
  | .reservedMajorOpcode h maj min rest => Sys2Proof.Machine.execReservedMajorOpcode h maj min rest s
  | .illegalMajorOpcode h maj min rest => Sys2Proof.Machine.execIllegalMajorOpcode h maj min rest s
  | .portableBlockHeader h min rest => Sys2Proof.Machine.execPortableBlockHeader h min rest s
  | .writeLanding b => Sys2Proof.Machine.execWriteLanding b s
  | .laneValueDrop b x => Sys2Proof.Machine.execLaneValueDrop b x s
  | .launchRecordPost b => Sys2Proof.Machine.execLaunchRecordPost b s
  | .muster b => Sys2Proof.Machine.execMuster b s
  | .freezeRelease b => Sys2Proof.Machine.execFreezeRelease b s
  | .preemptionRequest b => Sys2Proof.Machine.execPreemptionRequest b s
  | .debugStop b => Sys2Proof.Machine.execDebugStop b s
  | .rankSwitch b => Sys2Proof.Machine.execRankSwitch b s
  | .contextSave b => Sys2Proof.Machine.execContextSave b s
  | .stepImageSave b => Sys2Proof.Machine.execStepImageSave b s
  | .stepBarrierComplete c => Sys2Proof.Machine.execStepBarrierComplete c s
  | .milestoneChange job => Sys2Proof.Machine.execMilestoneChange job s
  | .trapReport b => Sys2Proof.Machine.execTrapReport b s
  | .rankEnd b => Sys2Proof.Machine.execRankEnd b s
  | .asyncDelivery k => Sys2Proof.Machine.execAsyncDelivery k s
  | .faultWindowPop q => Sys2Proof.Machine.execFaultWindowPop q s
  | .requestWindowPop b => Sys2Proof.Machine.execRequestWindowPop b s
  | .carveWrite b cl v => Sys2Proof.Machine.execCarveWrite b cl v s
  | .carveTakesEffect b => Sys2Proof.Machine.execCarveTakesEffect b s
  | .stargWrite k v => Sys2Proof.Machine.execStargWrite k v s
  | .pwrctlWrite off v => Sys2Proof.Machine.execPwrctlWrite off v s
  | .doorbell v => Sys2Proof.Machine.execDoorbell v s
  | .gatewayCommandStart b x k => Sys2Proof.Machine.execGatewayCommandStart b x k s
  | .gatewayFill b x k j => Sys2Proof.Machine.execGatewayFill b x k j s
  | .tokenCompletion b x k => Sys2Proof.Machine.execTokenCompletion b x k s
  | .watcherRead b x => Sys2Proof.Machine.execWatcherRead b x s
  | .sxJobStart b x => Sys2Proof.Machine.execSxJobStart b x s
  | .offsetPush b x => Sys2Proof.Machine.execOffsetPush b x s
  | .exchangeArrival b x => Sys2Proof.Machine.execExchangeArrival b x s
  | .prefetchStaging b cl => Sys2Proof.Machine.execPrefetchStaging b cl s
  | .contributionArrival b x k j => Sys2Proof.Machine.execContributionArrival b x k j s
  | .childValueTransfer way v => Sys2Proof.Machine.execChildValueTransfer way v s
  | .nodeCombine r id lo hi => Sys2Proof.Machine.execNodeCombine r id lo hi s
  | .collectiveDelivery r id => Sys2Proof.Machine.execCollectiveDelivery r id s
  | .convoyTransfer m => Sys2Proof.Machine.execConvoyTransfer m s
  | .linkDown port => Sys2Proof.Machine.execLinkDown port s
  | .telemetryTick m => Sys2Proof.Machine.execTelemetryTick m s
  | .eventWindowClear b => Sys2Proof.Machine.execEventWindowClear b s
  | .ptpMessage m => Sys2Proof.Machine.execPtpMessage m s
  | .pathDelayExchange upstream aligned => Sys2Proof.Machine.execPathDelayExchange upstream aligned s
  | .deviceReset => Sys2Proof.Machine.execDeviceReset s
  | .bayDrain b => Sys2Proof.Machine.execBayDrain b s
  | .baySelfTest b t => Sys2Proof.Machine.execBaySelfTest b t s
  | .hbmRetrain stack => Sys2Proof.Machine.execHbmRetrain stack s
  | .firmwareUpdate img => Sys2Proof.Machine.execFirmwareUpdate img s
  | .attestationRequest management req => Sys2Proof.Machine.execAttestationRequest management req s
  | .companionAccess a => Sys2Proof.Machine.execCompanionAccess a s
  | .cxlAccess a => Sys2Proof.Machine.execCxlAccess a s
  | .fillerSwitchIn b => Sys2Proof.Machine.execFillerSwitchIn b s
  | .fabricLinkRetrain port => Sys2Proof.Machine.execFabricLinkRetrain port s
  | .sharedPartFailure p => Sys2Proof.Machine.execSharedPartFailure p s
  | .boardPowerLoss => Sys2Proof.Machine.execBoardPowerLoss s

end Sys2Proof.Machine
end

