-- ==== Sys2Proof/Machine/Hub.lean ====
section
/-! DEFINITION. What the step function composes: which asynchronous steps a state enables, the end of a wc, and the words a
turn issues (log entry 3). -/

namespace Sys2Proof.Machine

/-! ## Asynchronous steps a state may enable (R37) -/

/-- The steps of one command. -/
def Cmd.events (c : Cmd) (b : BitVec 3) (x : BitVec 7) : List Instr :=
  let k : BitVec 6 := BitVec.ofNat 6 c.k
  let fills : List Instr := match c.what with
    | .fill _ ga _ _ => (List.range ga.length).map (fun j => .gatewayFill b x k (BitVec.ofNat 7 j))
    | _ => []
  .gatewayCommandStart b x k :: .tokenCompletion b x k :: fills ++ c.contribs.map (fun v => .contributionArrival b x k v.index)

/-- The steps of a tile but its watcher's. -/
def Tile.events (t : Tile) (b : BitVec 3) (x : BitVec 7) : List Instr :=
  t.cmds.flatMap (fun (c : Cmd) => c.events b x)
    ++ (if t.oq.jobs.isEmpty then [] else [.sxJobStart b x, .offsetPush b x])

/-- The steps of the collectives of a rank whose endpoint serves: nodes it may own, and deliveries, told here or over a port. -/
def State.collEvents (s : State) (y : Bay) : List Instr :=
  y.ep.openColls.flatMap (fun (c : Coll) =>
    let d := s.descriptor y c.desc
    let pos := (d.position y.rankid.toNat).getD 0
    let r : RankName := { job := y.job, rank := y.rankid }
    .collectiveDelivery { toRankName := r } c.id
      :: .collectiveDelivery { toRankName := r, via := some (BitVec.ofNat 5 (s.wc % 24)) } c.id
      :: (List.range 21).map (fun i => .nodeCombine r c.id pos (pos + 2 ^ i)))

/-- The steps of a bay. -/
def State.bayEvents (s : State) (i : Nat) : List Instr :=
  let b : BitVec 3 := BitVec.ofNat 3 i
  let y := s.bay i
  [.launchRecordPost b, .muster b, .contextSave b, .stepImageSave b, .trapReport b, .rankEnd b]
    ++ (List.range 128).flatMap (fun x => (y.tile x).events b (BitVec.ofNat 7 x)
      ++ (if s.mustWatch i x then [.watcherRead b (BitVec.ofNat 7 x)] else []))
    ++ (List.range 8).map (fun c => .prefetchStaging b (BitVec.ofNat 3 c))

/-- The steps of a job: those of its ranks' collectives, and the completion of its barrier, the other ranks having arrived
elsewhere, by the switch's stamp of up to 20,000 ns ago. -/
def State.jobEvents (s : State) (j : Job) : List Instr :=
  let stamp := s.ftime.toNat - (Config.freeWord s.free).toNat % 20000
  .stepBarrierComplete { job := j.id, others := j.v - j.arrived.length, stamp := BitVec.ofNat 64 stamp, port := BitVec.ofNat 5 (s.wc % 24) }
    :: (s.ranksHere j.id).flatMap (fun r => match s.seat j.id r with
      | some t => s.collEvents t.y
      | none => [])

/-- Every step the device may take of itself in a wc. A step the state does not enable is not taken. -/
def State.events (s : State) : List Instr := (List.range 8).flatMap s.bayEvents ++ s.jobs.flatMap s.jobEvents

/-- The steps that fabric time brings in this wc (13_counters R343; 19_boundaries R398). -/
def State.timely (s : State) : Option Instr :=
  if s.phase = .off then none
  else match s.jobs.find? s.changeDue with
  | some j => some (.milestoneChange j.id)
  | none => if s.tickDue then some (.telemetryTick s.measure) else none

/-- The step the hub's turn tries: one that is due by fabric time, else any of the others, or none, as a free value says. -/
def State.pick (s : State) : Option Instr × State :=
  let (v, t) := s.draw
  match s.timely with
  | some i => (some i, t)
  | none =>
    let es := if s.phase = .off then [] else s.events
    (es[v % (es.length + 1)]?, t)

/-- Fabric time after one wc: 1/2.7 ns, and, once it is acquired, up to 100 ppm more or less, as a free value says (00_scope R1;
01_device R21; 19_boundaries R396). -/
def State.passTime (s : State) : State :=
  let (v, s) := s.draw
  let units := s.fphase + (if s.acquired then 99990 + v % 21 else 100000)
  { s with ftime := s.ftime + BitVec.ofNat 64 (units / 270000), fphase := units % 270000 }

/-- The end of a wc: fabric time passes, firmware that waits for a step boundary or a drain takes effect (R406), fillers whose
displaced ranks can go on are asked to leave (02_execution R57), and the next wc begins. -/
def State.nextWc (s : State) : State :=
  let s := (List.range 8).foldl State.recall s.passTime.update
  { s with wc := s.wc + 1, turn := .bayStart 0 }

/-! ## What a turn issues -/

/-- What a core does in its tc. -/
inductive Action where
  | idle
  | word (i : Instr) (s : State)
  | trap (s : State)

/-- The word due on core `c`, whose stream is `v`, in tc `u`: the instruction it decodes to with the state in which it issues, or
the trap of a word that cannot be fetched or decoded. -/
def State.actionOf (s : State) (c : CoreId) (v : Strm) (u : Nat) : Action :=
  match s.dueWord c v u with
  | none => .idle
  | some (fn, off, w) =>
    let s' := s.issueAt c fn off w
    if s.badFetch c fn off then .trap (s'.raise 0x149)
    else match decode w with
      | .ok i => .word i s'
      | .error e => .trap (s'.badWord w e)

/-- Whose turn follows steward core `k`'s. -/
def afterSteward (k : Nat) : Turn := if k < 8 then .steward (k + 1) else .hub

/-- The state in which steward core `k` acts in its turn: its next tc has begun. -/
def State.stewardTurn (s : State) (k : Nat) : State :=
  let s : State := { s with turn := afterSteward k }
  if (s.steward k).running ∧ s.phase ≠ .boot then s.stewardBegin k else s

/-- What steward core `k` does: a delivery, or the word due. -/
def State.stewardAction (s : State) (k : Nat) : Action :=
  if !(s.steward k).running || s.phase == .boot then .idle
  else if (s.takeable k).isSome then .word (.asyncDelivery (BitVec.ofNat 4 k)) s
  else s.actionOf (.steward k) (s.steward k).strm (s.steward k).tc

/-! ## Placing a word for the next step -/

/-- The stream that a test word runs on: the first that executes its major opcode. -/
def streamFor (maj : Nat) : Nat := if maj ≤ 0x7F then ((groupStreams maj).1).headD 0 else 0

/-- A tile whose stream `k` has the word at offset 0 of function 0 next. -/
def Tile.fetching (t : Tile) (k : Nat) : Tile := t.setStrm k { t.strm k with next := .word 0 0 0, xfer := none }

/-- A running bay whose function 0 has the one word `w` in the body of stream `k`, due on tile 0. -/
def Bay.fetching (y : Bay) (k : Nat) (w : Code) : Bay :=
  let bodies := (List.range 9).map (fun j => if j = k then some [w] else none)
  let f : Fn := { fn := 0, bodies := bodies, size := 16, entered := true, succ := [], live := [] }
  { y with
    phase := .running
    tclk := 4095
    fnCount := max 1 y.fnCount
    clusters := Vector.ofFn (fun c : Fin 8 => { y.clusters[c.val] with code := [f] })
    freeze := none
    released := none
    views := []
    entering := []
    traps := []
    tiles := put y.tiles 0 ((y.tile 0).fetching k) }

end Sys2Proof.Machine
end

