-- ==== Sys2Proof/Machine/Step.lean ====
section
/-! DEFINITION. One step of the Flaez, and where a test word is placed for it. Every meaning it calls stands in the files
it imports. -/

namespace Sys2Proof.Machine

/-- An action carried out; a word that collides with another leaves nothing but its trap (00_scope R10). -/
def act (s : State) : Action → Host.Outcome State Fault Refusal
  | .idle => .next s
  | .word i s => match exec i s with
    | .next t => .next (s.settle t)
    | o => o
  | .trap s => .next s

/-- The hub's turn: one asynchronous step that the state enables, or the end of the wc. -/
def hubStep (s : State) : Host.Outcome State Fault Refusal :=
  match s.pick with
  | (none, s) => .next s.nextWc
  | (some i, s) => match exec i s with
    | .next t => .next t
    | _ => .next s.nextWc

/-- One step: a step of the agenda, else the turn's. -/
def step (s : State) : Host.Outcome State Fault Refusal :=
  match s.agenda with
  | i :: rest => exec i { s with agenda := rest }
  | [] => match s.turn with
    | .bayStart b => .next (s.bayStart b)
    | .issue b [] => .next { s with turn := .bayClose b }
    | .issue b ((x, k) :: q) =>
      let s : State := { s with turn := .issue b q }
      act s (s.actionOf (.tile b x k) ((s.tile b x).strm k) (s.bay b).tclk)
    | .bayClose b => .next (s.bayClose b)
    | .steward k =>
      let s := s.stewardTurn k
      act s (s.stewardAction k)
    | .hub => hubStep s

/-- The state with a word due next on tile 0 of bay 0, in the stream that executes its major opcode (log entry 2). -/
def State.withFetchWord (s : State) (_nbits w : Nat) : State :=
  let c : Code := BitVec.ofNat 128 w
  let k := streamFor (c.extractLsb' 120 8).toNat
  { s with agenda := [], turn := .issue 0 [(0, k)], bays := put s.bays 0 ((s.bay 0).fetching k c) }

end Sys2Proof.Machine
end

