-- ==== Sys2Proof/WellFormed.lean ====
section
/-! DEFINITION. Which terms of `Instr` stand for instruction words: the modifier bits a row does not define are zero
(03_encoding R63), the extra modifier bits likewise, and no operand raises a cause of the encoding class (R75). -/

namespace Sys2Proof

/-- The extra modifier bits a word carries lie within `mask`. -/
def extraWithin (o : Ops) (mask : BitVec 20) : Bool := Machine.extra o.c &&& ~~~mask == 0#20

/-- The common modifiers a row does not use are zero (R71); `rm` below 5 where it is a rounding mode. -/
def vmodWithin (m : VMod) (z rm ftz ty x : Bool) : Bool :=
  (z || !m.z) && (if rm then m.rm.toNat < 5 else m.rm == 0#3) && (ftz || !m.ftz) && (ty || m.ty == 0#5) && (x || !m.x)

/-- The bits that must be zero are zero, and the words whose bits [79:0] stand whole name the opcodes of their fate. -/
def encodable : Instr → Bool
  | .nop _ o | .wait _ o | .halt _ o | .btgt _ o _ | .br _ o | .call _ o | .ret _ o | .rdv _ o _ _ | .safe _ o
  | .holdTok _ o | .holdSem _ o | .holdBc _ o | .holdStep _ o | .holdCol _ o | .trap _ o | .sysc _ o
  | .lpset _ o | .lpend _ o | .lndef _ o | .lngo _ o | .lnnext _ o
  | .mov _ o | .movi _ o _ _ | .srd _ o | .swr _ o | .eret _ o
  | .add _ o | .sub _ o | .and _ o | .or _ o | .xor _ o | .andn _ o | .shl _ o | .shr _ o | .sar _ o
  | .min _ o | .max _ o | .minu _ o | .maxu _ o | .sel _ o
  | .mul _ o | .mulh _ o _ | .div _ o _ | .rem _ o _ | .clz _ o | .popc _ o | .ext _ o _ | .ins _ o
  | .cmp _ o _ _ _ | .pset _ o _ | .pbc _ o _ _ | .semw _ o | .sems _ o _ _ | .mtxl _ o | .mtxu _ o _ _
  | .ldl _ o _ _ _ | .stl _ o _ _ | .brd _ o _ _ | .bwr _ o _ | .brds _ o _ _ _ | .bgth _ o _ _
  | .bsct _ o _ _ | .bfill _ o _ _ | .bchk _ o _
  | .bind _ o | .st64 _ o | .waita _ o _ | .vpopc _ o _
  | .qsetLen _ o _ _ | .qsetBc _ o _ | .qsetFn _ o _
  | .xrate _ o | .xoff _ o _ | .xend _ o | .xcnt _ o | .mzero _ o | .manc _ o | .xsnd _ o | .xrcv _ o =>
      extraWithin o 0
  | .fan _ _ | .pfi _ _ _ | .portableBlockHeader _ _ _ => true
  | .batm _ o _ _ | .vany _ o | .vall _ o | .qsetCopy _ o _ => extraWithin o 0xF
  | .gld _ _ _ _ | .gst _ _ _ _ | .gcpy _ _ _ | .gpf _ _ _ | .ginv _ _ _ | .gwb _ _ _ | .ggth _ _ _ _ | .gsct _ _ _ _
  | .gatm _ _ _ _ _ | .glev _ _ _ | .acq _ _ _ _ | .rel _ _ _ _ | .fence _ _ _ _ => true
  | .vadd _ o m | .vsub _ o m | .vmul _ o m | .vfma _ o m | .vfms _ o m | .vscl _ o m
  | .fexp2 _ o m | .flog2 _ o m | .frcp _ o m | .frsq _ o m | .fsqrt _ o m | .fsin _ o m | .fcos _ o m
  | .ftanh _ o m | .fsigm _ o m | .ferf _ o m | .mrd _ o m => extraWithin o 0 && vmodWithin m true true true true false
  | .vneg _ o m | .vabs _ o m | .vmin _ o m | .vmax _ o m | .vminn _ o m | .vmaxn _ o m | .vmaxi _ o m | .vmini _ o m
  | .vsel _ o m | .vtag _ o m | .vand _ o m | .vor _ o m | .vxor _ o m | .vnot _ o m | .vshl _ o m | .vshr _ o m
  | .vsar _ o m | .vmov _ o m | .vbcst _ o m | .vperm _ o m | .vshf _ o m | .vrng _ o m | .vhsh _ o m | .vatc _ o m =>
      extraWithin o 0 && vmodWithin m true false false true false
  | .vcmp _ o _ => extraWithin o 0
  | .vcvt _ o m => extraWithin o 0x1F && vmodWithin m true true true true false
  | .vpack _ o m | .vunpk _ o m =>
      extraWithin o (if m.x then 1 else 0) && vmodWithin m true false false true true
  | .viadd _ o m | .visub _ o m | .vimul _ o m | .vlit _ o m => extraWithin o 0 && vmodWithin m true false false true true
  | .vdot _ o m => extraWithin o 0xF && vmodWithin m true false false true false
  | .vred _ o m => extraWithin o 0xF && vmodWithin m false true true true false
  | .vscan _ o m => extraWithin o 0xF && vmodWithin m true true true true true
  | .vcmpt _ o m | .vatf _ o m => extraWithin o 0 && vmodWithin m false false false true false
  | .xbmp _ o slot _ | .xrle _ o slot _ | .xcsr _ o slot _ => slot || extraWithin o 0
  | .xidx _ o slot _ _ => slot || extraWithin o 0
  | .mldb _ o m => extraWithin o 0 && vmodWithin m false false true true true
  | .mma _ o m | .mmat _ o m => extraWithin o 0 && vmodWithin m true false true true true
  | .mmas _ o m | .mwr _ o m | .macc _ o m => extraWithin o 0 && vmodWithin m true false true true false
  | .hnt _ maj _ _ => 0xC1 ≤ maj.toNat && maj.toNat ≤ 0xDF
  | .reservedMajorOpcode _ maj _ _ => 0x80 ≤ maj.toNat && maj.toNat ≤ 0xBF
  | .illegalMajorOpcode _ maj _ _ =>
      (0x08 ≤ maj.toNat && maj.toNat ≤ 0x1F) || (0x23 ≤ maj.toNat && maj.toNat ≤ 0x27)
      || (0x2C ≤ maj.toNat && maj.toNat ≤ 0x2F) || (0x32 ≤ maj.toNat && maj.toNat ≤ 0x3F)
      || (0x4A ≤ maj.toNat && maj.toNat ≤ 0x5F) || (0x61 ≤ maj.toNat && maj.toNat ≤ 0x67)
      || (0x69 ≤ maj.toNat && maj.toNat ≤ 0x6F) || (0x73 ≤ maj.toNat && maj.toNat ≤ 0x77)
      || (0x79 ≤ maj.toNat && maj.toNat ≤ 0x7F) || (0xE0 ≤ maj.toNat && maj.toNat ≤ 0xFE)
  | _ => false

/-- An instruction word that raises no cause of the encoding class when active (R75). -/
def wellFormed (i : Instr) : Bool := encodable i && (Machine.formCauses i).isEmpty

end Sys2Proof
end

