-- ==== Sys2Proof/Safety.lean ====
section
/-! DEFINITION. The terms in which claims about the machine are stated: what counts as a safe run, which streams execute a
word and under which guard (03_encoding R65, R72, Table 4), and what the issue of a word may not change. -/

namespace Sys2Proof.Safety

open Sys2Proof.Machine

/-! ## Safe runs -/

/-- The byte memories of the device are in canonical form: physical memory, the descriptor store and every steward
core's local RAM. -/
def memoriesOk (s : State) : Prop :=
  memWf s.mem = true ∧ memWf s.desc = true ∧ ∀ k, memWf (s.steward k).ram = true

/-- The fields of a steward core's trap registers that are reserved read zero: tvbase is a page, epc a word address
(15_traps Table 3; 11_tables R306). -/
def trapRegistersOk (w : Steward) : Prop :=
  w.tvbase &&& ~~~0x0000FFFFFFFFF000 = 0 ∧ w.epc &&& ~~~0x0000FFFFFFFFFFF0 = 0 ∧ w.ecause &&& ~~~0x301FF = 0

/-- A step answers a next state or refuses; it never faults. -/
def neverFaults (s : State) : Prop := ∀ f, step s ≠ .fault f

/-! ## Words -/

/-- The streams that execute a word, and whether a steward core does (Table 4); none for a step, and none for the words
whose fate does not ask for the stream (R73). -/
def streamsOf : Instr → Option (List Nat × Bool)
  | .nop _ _ | .wait _ _ | .halt _ _ | .btgt _ _ _ | .br _ _ | .call _ _ | .ret _ _ | .rdv _ _ _ _ | .safe _ _
  | .holdTok _ _ | .holdSem _ _ | .holdBc _ _ | .holdStep _ _ | .holdCol _ _ | .trap _ _ | .sysc _ _
  | .lpset _ _ | .lpend _ _ | .lndef _ _ | .lngo _ _ | .lnnext _ _
  | .mov _ _ | .movi _ _ _ _ | .srd _ _ | .swr _ _ | .eret _ _ | .fan _ _
  | .add _ _ | .sub _ _ | .and _ _ | .or _ _ | .xor _ _ | .andn _ _ | .shl _ _ | .shr _ _ | .sar _ _
  | .min _ _ | .max _ _ | .minu _ _ | .maxu _ _ | .sel _ _
  | .mul _ _ | .mulh _ _ _ | .div _ _ _ | .rem _ _ _ | .clz _ _ | .popc _ _ | .ext _ _ _ | .ins _ _
  | .cmp _ _ _ _ _ | .pset _ _ _ | .pbc _ _ _ _ | .semw _ _ | .sems _ _ _ _ | .mtxl _ _ | .mtxu _ _ _ _ =>
      some ([0, 1, 2, 3, 4, 5, 6, 7, 8], true)
  | .ldl _ _ _ _ _ | .stl _ _ _ _ | .acq _ _ _ _ | .rel _ _ _ _ | .fence _ _ _ _ | .bind _ _ | .st64 _ _ | .waita _ _ _ =>
      some ([0], true)
  | .brd _ _ _ _ | .bwr _ _ _ | .brds _ _ _ _ _ | .bgth _ _ _ _ | .bsct _ _ _ _ | .bfill _ _ _ _ | .bchk _ _ _
  | .batm _ _ _ _ => some ([1], false)
  | .gld _ _ _ _ | .gst _ _ _ _ | .gcpy _ _ _ | .gpf _ _ _ | .ginv _ _ _ | .gwb _ _ _ | .ggth _ _ _ _ | .gsct _ _ _ _
  | .gatm _ _ _ _ _ | .glev _ _ _ => some ([7], false)
  | .vadd _ _ _ | .vsub _ _ _ | .vmul _ _ _ | .vfma _ _ _ | .vfms _ _ _ | .vneg _ _ _ | .vabs _ _ _
  | .vmin _ _ _ | .vmax _ _ _ | .vminn _ _ _ | .vmaxn _ _ _ | .vmaxi _ _ _ | .vmini _ _ _ | .vcmp _ _ _ | .vsel _ _ _
  | .vcvt _ _ _ | .vscl _ _ _ | .vpack _ _ _ | .vunpk _ _ _ | .vtag _ _ _
  | .viadd _ _ _ | .visub _ _ _ | .vimul _ _ _ | .vand _ _ _ | .vor _ _ _ | .vxor _ _ _ | .vnot _ _ _ | .vshl _ _ _
  | .vshr _ _ _ | .vsar _ _ _ | .vdot _ _ _
  | .vmov _ _ _ | .vlit _ _ _ | .vbcst _ _ _ | .vperm _ _ _ | .vshf _ _ _ | .vred _ _ _ | .vscan _ _ _ | .vcmpt _ _ _
  | .vany _ _ | .vall _ _ | .vpopc _ _ _ | .qsetLen _ _ _ _ | .qsetBc _ _ _ | .qsetFn _ _ _ | .qsetCopy _ _ _
  | .vrng _ _ _ | .vhsh _ _ _ | .vatc _ _ _ | .vatf _ _ _ => some ([3, 4], false)
  | .fexp2 _ _ _ | .flog2 _ _ _ | .frcp _ _ _ | .frsq _ _ _ | .fsqrt _ _ _ | .fsin _ _ _ | .fcos _ _ _ | .ftanh _ _ _
  | .fsigm _ _ _ | .ferf _ _ _ => some ([5], false)
  | .xbmp _ _ _ _ | .xrle _ _ _ _ | .xcsr _ _ _ _ | .xidx _ _ _ _ _ | .xrate _ _ | .xoff _ _ _ | .xend _ _ | .xcnt _ _ =>
      some ([6], false)
  | .mzero _ _ | .manc _ _ | .mldb _ _ _ | .mma _ _ _ | .mmas _ _ _ | .mmat _ _ _ | .mrd _ _ _ | .mwr _ _ _ | .macc _ _ _ =>
      some ([2], false)
  | .xsnd _ _ | .xrcv _ _ => some ([8], false)
  | _ => none

/-- The head of a word whose guard reads p registers (R65), among those of `streamsOf`. -/
def pHead : Instr → Option Head
  | .nop h _ | .wait h _ | .halt h _ | .btgt h _ _ | .br h _ | .call h _ | .ret h _ | .rdv h _ _ _ | .safe h _
  | .holdTok h _ | .holdSem h _ | .holdBc h _ | .holdStep h _ | .holdCol h _ | .trap h _ | .sysc h _
  | .lpset h _ | .lpend h _ | .lndef h _ | .lngo h _ | .lnnext h _
  | .mov h _ | .movi h _ _ _ | .srd h _ | .swr h _ | .eret h _ | .fan h _
  | .add h _ | .sub h _ | .and h _ | .or h _ | .xor h _ | .andn h _ | .shl h _ | .shr h _ | .sar h _
  | .min h _ | .max h _ | .minu h _ | .maxu h _ | .sel h _
  | .mul h _ | .mulh h _ _ | .div h _ _ | .rem h _ _ | .clz h _ | .popc h _ | .ext h _ _ | .ins h _
  | .cmp h _ _ _ _ | .pset h _ _ | .pbc h _ _ _ | .semw h _ | .sems h _ _ _ | .mtxl h _ | .mtxu h _ _ _
  | .ldl h _ _ _ _ | .stl h _ _ _ | .brd h _ _ _ | .bwr h _ _ | .brds h _ _ _ _ | .bgth h _ _ _ | .bsct h _ _ _
  | .bfill h _ _ _ | .bchk h _ _ | .batm h _ _ _
  | .gld h _ _ _ | .gst h _ _ _ | .gcpy h _ _ | .gpf h _ _ | .ginv h _ _ | .gwb h _ _ | .ggth h _ _ _ | .gsct h _ _ _
  | .gatm h _ _ _ _ | .glev h _ _ | .acq h _ _ _ | .rel h _ _ _ | .fence h _ _ _ | .bind h _ | .st64 h _ | .waita h _ _
  | .xbmp h _ _ _ | .xrle h _ _ _ | .xcsr h _ _ _ | .xidx h _ _ _ _ | .xrate h _ | .xoff h _ _ | .xend h _ | .xcnt h _
  | .xsnd h _ | .xrcv h _ => some h
  | _ => none

/-- The head of a word whose guard reads q registers (R65). -/
def qHead : Instr → Option Head
  | .vadd h _ _ | .vsub h _ _ | .vmul h _ _ | .vfma h _ _ | .vfms h _ _ | .vneg h _ _ | .vabs h _ _
  | .vmin h _ _ | .vmax h _ _ | .vminn h _ _ | .vmaxn h _ _ | .vmaxi h _ _ | .vmini h _ _ | .vcmp h _ _ | .vsel h _ _
  | .vcvt h _ _ | .vscl h _ _ | .vpack h _ _ | .vunpk h _ _ | .vtag h _ _
  | .viadd h _ _ | .visub h _ _ | .vimul h _ _ | .vand h _ _ | .vor h _ _ | .vxor h _ _ | .vnot h _ _ | .vshl h _ _
  | .vshr h _ _ | .vsar h _ _ | .vdot h _ _
  | .vmov h _ _ | .vlit h _ _ | .vbcst h _ _ | .vperm h _ _ | .vshf h _ _ | .vred h _ _ | .vscan h _ _ | .vcmpt h _ _
  | .vany h _ | .vall h _ | .vpopc h _ _ | .qsetLen h _ _ _ | .qsetBc h _ _ | .qsetFn h _ _ | .qsetCopy h _ _
  | .vrng h _ _ | .vhsh h _ _ | .vatc h _ _ | .vatf h _ _
  | .fexp2 h _ _ | .flog2 h _ _ | .frcp h _ _ | .frsq h _ _ | .fsqrt h _ _ | .fsin h _ _ | .fcos h _ _ | .ftanh h _ _
  | .fsigm h _ _ | .ferf h _ _
  | .mzero h _ | .manc h _ | .mldb h _ _ | .mma h _ _ | .mmas h _ _ | .mmat h _ _ | .mrd h _ _ | .mwr h _ _ | .macc h _ _ =>
      some h
  | _ => none

/-- The words of Table 4 and the hint, reserved, illegal and header words; every other instruction is a step. -/
def isWord (i : Instr) : Bool :=
  (streamsOf i).isSome || match i with
    | .pfi _ _ _ | .hnt _ _ _ _ | .reservedMajorOpcode _ _ _ _ | .illegalMajorOpcode _ _ _ _ | .portableBlockHeader _ _ _ => true
    | _ => false

/-- The token a command word names as its own, KD (08_memories R244). -/
def ownToken : Instr → Option (BitVec 6)
  | .gld _ _ k _ | .gst _ _ k _ | .gcpy _ _ k | .gpf _ _ k | .ginv _ _ k | .gwb _ _ k | .ggth _ _ k _ | .gsct _ _ k _
  | .gatm _ _ k _ _ | .glev _ _ k | .acq _ _ k _ | .rel _ _ k _ | .fence _ _ k _ => some k
  | _ => none

/-- The words that read their guard at their sample whatever the queue's mode (05_control_registers R144). -/
def samplesGuard : Instr → Bool
  | .holdTok _ _ | .holdSem _ _ | .holdBc _ _ | .holdStep _ _ | .holdCol _ _ | .semw _ _ | .mtxl _ _ | .waita _ _ _ => true
  | _ => false

/-- The issuing core executes the word's group. -/
def Placed (i : Instr) (s : State) : Prop := ∀ ks stew, streamsOf i = some (ks, stew) → s.executes ks stew = true

/-- A word that is active where it issues: its core executes its group, its guard is true (for a q guard, at some
position), and its own bits raise nothing (R65, R75). What else its rules ask for, a statement says. -/
def Runs (i : Instr) (s : State) : Prop :=
  Placed i s ∧ (∀ h, pHead i = some h → guardP h s.strm = true) ∧ (∀ h, qHead i = some h → guardQ h s.strm ≠ 0) ∧
    formCauses i = []

/-- The issuing core is stream `k` of tile `x` of bay `b`. -/
def OnTile (s : State) (b x k : Nat) : Prop := s.core = .tile b x k ∧ b < 8 ∧ x < 128 ∧ k < 9

/-- Row `n`, as the issuing stream names it, holds `r`, which is not poisoned. -/
def HoldsRow (s : State) (n : BitVec 8) (r : Row) : Prop :=
  nth s.curTile.rows (s.strm.physV n) {} = r ∧ r.md.poison = false

/-- A pop of the issuing word of tile `x` raises no 0x046 for what lies in its freeze horizon: its sample found the queue strict, or
neither a write to one of `ts` nor an XOFF landed there (05_control_registers R144). -/
def popsFreely (s : State) (b x : Nat) (ts : List Target) : Prop :=
  (((s.bay b).viewAt s.tc).tile x).oq.strict = true ∨ (s.horizonHit [.xoff] = false ∧ s.horizonHit ts = false)

/-- An unpoisoned row that reads as one of an accumulator tile: of tag ACC96, or NONE, which is zero slots at anchor 0
(07_accumulators R208). -/
def isAcc (r : Row) : Prop := r.md.poison = false ∧ (r.md.tag = 23 ∨ r.md.tag = 0)

/-- The slots and the anchor of such a row. -/
def accSlots (r : Row) : List Nat := if r.md.tag = 0 then List.replicate 32 0 else rowElems r
def accAnchor (r : Row) : BitVec 16 := if r.md.tag = 0 then 0 else r.md.anchor

/-- The lane of element `j` of format `f` is active under the guard of the word. -/
def laneOn (h : Head) (s : State) (f : BitVec 5) (j : Nat) : Prop := (guardQ h s.strm).getLsbD (posOf f j) = true

/-- The word `i` completes, its row result of format `f` landing `lat` tc later where its guard is true: element `j` of an
active lane is `lane j`. `draws` says that it advances the draw counter. -/
def LandsLanes (i : Instr) (h : Head) (o : Ops) (s : State) (lat : Nat) (m : VMod) (draws : Bool) (f : BitVec 5) (lane : Nat → Nat) :
    Prop :=
  ∃ el evs, exec i s = .next ((s.vwrite lat o.d m (stationOf s.strmNo)
      { f := f, el := el, act := guardQ h s.strm, evs := evs }).advanceDraw draws) ∧
    el.length = lanes f ∧ ∀ j, j < lanes f → laneOn h s f j → el.getD j 0 = lane j

/-- The same for a word that gives every element of its result, with scales and anchor, at the positions `act`. -/
def LandsRow (i : Instr) (o : Ops) (s : State) (lat : Nat) (m : VMod) (draws : Bool) (f : BitVec 5) (el : List Nat)
    (scales : BitVec 256) (anchor : BitVec 16) (act : QReg) : Prop :=
  ∃ evs, exec i s = .next ((s.vwrite lat o.d m (stationOf s.strmNo)
    { f := f, el := el, scales := scales, anchor := anchor, act := act, evs := evs }).advanceDraw draws)

/-- The value (−1)^neg · m · 2^e in units of 2^u, for u ≤ e. -/
def unitsOf (u : Int) (neg : Bool) (m : Nat) (e : Int) : Int :=
  (if neg then -1 else 1) * ((m * 2 ^ (e - u).toNat : Nat) : Int)

/-! ## What the issue of a word leaves alone -/

/-- The registers of a stream: all its state but where it stands in its code, its loop nest and its draw
counter. -/
def sameRegisters (u v : Strm) : Prop :=
  u.a = v.a ∧ u.b = v.b ∧ u.p = v.p ∧ u.q = v.q ∧ u.lcnt = v.lcnt ∧ u.lbndN = v.lbndN ∧ u.lbndS = v.lbndS ∧
    u.ra = v.ra ∧ u.rp = v.rp ∧ u.rv = v.rv ∧ u.ftm = v.ftm ∧ u.evsel = v.evsel ∧ u.bcsel = v.bcsel ∧ u.pmsel = v.pmsel

/-- The storage of a tile: registers, rows, planes, slots, line cache and semaphores. -/
def sameStorage (t u : Tile) : Prop :=
  (∀ k, sameRegisters (t.strm k) (u.strm k)) ∧ t.rows = u.rows ∧ t.planes = u.planes ∧ t.slots = u.slots ∧
    t.lines = u.lines ∧ t.sems = u.sems

end Sys2Proof.Safety
end

