-- ==== Sys2Proof/Certificates/Slice0/Obligations.lean ====
section
/-! DEFINITION. The statements for the provers. `Runs i s` is a word active where it issues (Safety). The statement of a
word's result has as its conclusion the next state that `exec` answers. A word's writes land later: `s.post lat what` is
the state with the writes `what` in flight, due `lat` tc from now; the landing statements say what they then change. -/

open Sys2Proof Sys2Proof.Machine Sys2Proof.Safety

/-! ## Encoding and decoding -/

/-- Decode of encode is the instruction, for every instruction word with every operand at every value its fields can
hold (03_encoding R62 to R73). -/
def Obligations.DecodeOfEncode : Prop :=
  ∀ i : Instr, encodable i = true → ∃ w, encode i = some w ∧ decode w = .ok i

/-- Encode of decode is the word: no bit of a word that decodes is dropped, and no other word stands for its
instruction. -/
def Obligations.EncodeOfDecode : Prop :=
  ∀ (w : Code) (i : Instr), decode w = .ok i → encode i = some w

/-- The words that the spec's examples write out decode to what their field lists name: ADD (03_encoding), CMP
(05_control_registers), VADD (06_vector_rows), MMA (07_accumulators), GLD (08_memories), REL (09_ordering), XIDX
(10_queues), GLEV (11_tables), ST64 (12_endpoints), SEMS (13_counters). -/
def Obligations.DecodesExampleWords : Prop :=
  decode 0x040024030003007006005000F0000000#128
      = .ok (.add ⟨2, 4, 0, 0x30, 3⟩ ⟨.a 7, .a 6, .a 5, .sel .none 0⟩) ∧
  decode 0x0600400F0002301003F01045000003E8#128
      = .ok (.cmp ⟨4, 0, 0, 0xF0, 2⟩ ⟨.p 1, .a 3, .lit, .lit 0x3E8⟩ 2 2 0) ∧
  decode 0x4000500F000110C103202302F0000000#128
      = .ok (.vadd ⟨5, 0, 0, 0xF0, 1⟩ ⟨.v 12, .v 3, .lane false 2, .sel .none 0⟩ ⟨true, 0, false, 12, false⟩) ∧
  decode 0x7100900F0002602128F00AC0F0000000#128
      = .ok (.mma ⟨9, 0, 0, 0xF0, 2⟩ ⟨.acc 2, .v 40, .none, .sel .none 0⟩ ⟨false, 0, false, 11, true⟩) ∧
  decode 0x2800000FF00700500650218400700000#128
      = .ok (.gld ⟨0, 0, 0, 0xFF, 7⟩ ⟨.a 5, .a 6, .imm 2, .sel (.a 7) 0⟩ 2 3) ∧
  decode 0x3001000FF00000A501F00284F0040001#128
      = .ok (.rel ⟨0, 0, 0, 0xFF, 0⟩ ⟨.a 10, .imm 1, .none, .sel .none 0x40001⟩ 2 5) ∧
  decode 0x6803000FF003114004540180F0000000#128
      = .ok (.xidx ⟨0, 0, 0, 0xFF, 3⟩ ⟨.v 20, .a 4, .imm 64, .sel .none 0⟩ false 0 6) ∧
  decode 0x2B00000FF000004005F00002F0000000#128
      = .ok (.glev ⟨0, 0, 0, 0xFF, 0⟩ ⟨.a 4, .a 5, .none, .sel .none 0⟩ 1) ∧
  decode 0x3101000FF000003008F00000F0000000#128
      = .ok (.st64 ⟨0, 0, 0, 0xFF, 0⟩ ⟨.a 3, .a 8, .none, .sel .none 0⟩) ∧
  decode 0x0701000FF002503501F00084F0000000#128
      = .ok (.sems ⟨0, 0, 0, 0xFF, 2⟩ ⟨.imm 3, .imm 1, .none, .sel .none 0⟩ true 2)

/-! ## The step -/

/-- A step runs the decoded instruction of a tile: with nothing on the agenda, in the turn of stream `k` of tile `x`,
when the word due there in the bay's tc decodes to `i`, the step is exec of `i` in the state in which the word issues:
the queue of the turn is shorter by this stream, the core is this stream, and its next word counts from tc + 1. What that
exec leaves is the step's, with a note of what the word has changed before its results land (the model's, log entry 61; TrapsStopTheBay
says that nothing else differs), unless its writes collide with those already due on its tile: then the step is the trap
alone, in the state in which the word issued (00_scope R10; 02_execution R34; log entry 28: the model's reading). A word whose line of the code store holds an
uncorrectable soft error is not run: it raises 0x149 (15_traps R375). A word that decodes to nothing is no instruction: outside the
streams of its group it raises 0x003 whatever its guard, and active 0x002 for an unassigned minor opcode and 0x004 for a reserved
field (03_encoding R63, R72 to R74); suppressed it does nothing, but for WAIT, whose count stands (05_control_registers R136), and
for a reserved field of a command word, whose token completes empty at issue + 1 unless another command holds it (08_memories
R244). The same of a steward core: its tc begins (writes in flight land), and
unless it takes a delivery the word due is run. A step placed on the agenda is carried out first, with the rest of the
agenda left (the model's convention of log entry 3). -/
def Obligations.StepRunsTheDecodedWord : Prop :=
  (∀ (s : State) (b x k : Nat) (q : List (Nat × Nat)) (fn : BitVec 24) (off : Nat) (w : Code) (i : Instr),
      s.agenda = [] → s.turn = .issue b ((x, k) :: q) →
      s.dueWord (.tile b x k) ((s.tile b x).strm k) (s.bay b).tclk = some (fn, off, w) →
      s.badFetch (.tile b x k) fn off = false → decode w = .ok i →
      let u := ({ s with turn := .issue b q } : State).issueAt (.tile b x k) fn off w
      ∀ t, exec i u = .next t → step s = .next (match (t.tile b x).issueTrap u.tc k u.addr with
        | some c => u.raise c
        | none => u.note t)) ∧
  (∀ (s : State) (k off : Nat) (w : Code) (i : Instr),
      s.agenda = [] → s.turn = .steward k →
      ((s.stewardTurn k).steward k).running = true → (s.stewardTurn k).phase ≠ .boot →
      (s.stewardTurn k).takeable k = none →
      (s.stewardTurn k).dueWord (.steward k) ((s.stewardTurn k).steward k).strm ((s.stewardTurn k).steward k).tc
        = some (0, off, w) →
      (decode w = .ok i → step s = exec i ((s.stewardTurn k).issueAt (.steward k) 0 off w)) ∧
      (∀ e, decode w = .error e → step s = .next (((s.stewardTurn k).issueAt (.steward k) 0 off w).badWord w e))) ∧
  (∀ (s : State) (b x k : Nat) (q : List (Nat × Nat)) (fn : BitVec 24) (off : Nat) (w : Code),
      s.agenda = [] → s.turn = .issue b ((x, k) :: q) →
      s.dueWord (.tile b x k) ((s.tile b x).strm k) (s.bay b).tclk = some (fn, off, w) →
      let u := ({ s with turn := .issue b q } : State).issueAt (.tile b x k) fn off w
      (s.badFetch (.tile b x k) fn off = true → step s = .next (u.raise 0x149)) ∧
      (s.badFetch (.tile b x k) fn off = false → ∀ e, decode w = .error e → step s = .next (u.badWord w e))) ∧
  (∀ (s : State) (w : Code) (h : Head) (maj : BitVec 8),
      let m := maj.toNat
      let runs := s.executes (groupStreams m).1 (groupStreams m).2
      let lane : Prop := (0x40 ≤ m ∧ m ≤ 0x49) ∨ m = 0x60 ∨ (0x70 ≤ m ∧ m ≤ 0x72)
      let on : Prop := if lane then guardQ h s.strm ≠ 0 else guardP h s.strm = true
      let kd := (w.extractLsb' 33 6).toNat
      (runs = false → s.badWord w (.unassignedMinor h maj) = s.raise 0x003 ∧ s.badWord w (.badField h maj) = s.raise 0x003) ∧
      (runs = true → on → s.badWord w (.unassignedMinor h maj) = s.raise 0x002 ∧ s.badWord w (.badField h maj) = s.raise 0x004) ∧
      (runs = true → ¬on → s.badWord w (.unassignedMinor h maj) = s ∧ s.badWord w (.badField h maj)
        = if ((0x28 ≤ m ∧ m ≤ 0x2B) ∨ m = 0x30) ∧ s.onSteward = false
          then (if s.tokBusy kd then s else s.post 1 [.tokEmpty kd]) else s.delayNext (extraWait w)) ∧
      (w.extractLsb' 112 16 ≠ 0x0001#16 → extraWait w = 0)) ∧
  (∀ (s : State) (i : Instr) (rest : List Instr), s.agenda = i :: rest → step s = exec i { s with agenda := rest })

/-! ## Reset and the memories -/

/-- The values the spec gives for reset: a-, b- and p-registers, loop, rotation and mode fields of every stream,
counters and clocks of every bay, the steward cores' trap registers, the power controller (slew 200 W/ms, ballast on,
floor 0, cap 4,000 W: 19_boundaries R398), no acquired time. -/
def Obligations.ResetValues : Prop :=
  (∀ b x k, b < 8 → x < 128 → k < 9 →
    let u := (State.reset.tile b x).strm k
    (∀ n, u.readA n = 0) ∧ (∀ n, u.readB n = 0) ∧ (∀ n, u.readP n = (n == 0)) ∧
      u.lcnt = 0 ∧ u.lbndN = 0 ∧ u.lbndS = 0 ∧ u.ra = 0 ∧ u.rp = 0 ∧ u.rv = 0 ∧ u.ftm = false ∧ u.draw = 0) ∧
  (∀ b, b < 8 → let y := State.reset.bay b
    y.tclk = 0 ∧ y.wclk = 0 ∧ y.frzc = 0 ∧ y.rankid = 0 ∧ y.nrank = 0 ∧ y.nstage = 0 ∧ y.detm = false ∧ y.evact = 0 ∧
      y.ptbase = 0 ∧ y.fillthr = 0 ∧ y.energy = 0 ∧ ∀ i, nth y.pm i 0 = 0) ∧
  (∀ k, k < 9 → let w := State.reset.steward k
    w.tvbase = 0 ∧ w.ecause = 0 ∧ w.epc = 0 ∧ w.estat = 0 ∧ w.escr = 0 ∧ w.starg = 0) ∧
  State.reset.power.slew = 200 ∧ State.reset.power.ben = true ∧ State.reset.power.floor = 0 ∧
  State.reset.power.cap = 4000 ∧ State.reset.power.telbase = 0 ∧ State.reset.ftime = 0 ∧ State.reset.acquired = false

/-- The byte memories have their canonical form at reset. -/
def Obligations.ResetMemoriesOk : Prop :=
  memoriesOk State.reset

/-- Every step keeps the canonical form of physical memory, of the descriptor store and of every local RAM, from every
state that has it: no run is assumed. -/
def Obligations.StepKeepsMemories : Prop :=
  ∀ s t : State, memoriesOk s → step s = .next t → memoriesOk t

/-- Every step keeps the reserved bits of every steward core's tvbase, epc and ecause zero (15_traps Table 3; 11_tables
R306), from every state in which they are zero; the landing of a write a steward core has in flight among them. -/
def Obligations.StepKeepsTrapRegisters : Prop :=
  ∀ s t : State, (∀ k, trapRegistersOk (s.steward k)) → step s = .next t → ∀ k, trapRegistersOk (t.steward k)

/-- Physical memory: a byte written is read back, every other byte reads as before, and the canonical form stays.
Little-endian order of a stored word (00_scope R3): the byte at a + j is bits 8j to 8j + 7, and bytes outside the word
are unchanged. Memory at its home agent: a piece of one good line written there is read back, and every other byte reads
there as before, where no die cache holds more lines than it has room for (08_memories R240; 09_ordering R252; 01_device
Table 4). A tile reads its own writes (08_memories R241): whatever CL and WP
the page has, a write of a piece of one line leaves it as the tile's next gateway read of the line finds it, with the
line's other bytes as that tile read them before. -/
def Obligations.MemoryHoldsWhatIsWritten : Prop :=
  (∀ (m : List Host.Cell) (a : Nat) (v : Byte), memWf m = true →
      readByte (writeByte m a v) a = v ∧ (∀ b, b ≠ a → readByte (writeByte m a v) b = readByte m b) ∧
        memWf (writeByte m a v) = true) ∧
  (∀ (m : List Host.Cell) (a n v : Nat), memWf m = true →
      (∀ j, j < n → readByte (writeBytes m a (leBytes n v)) (a + j) = BitVec.ofNat 8 (v / 256 ^ j)) ∧
      (∀ b, b < a ∨ a + n ≤ b → readByte (writeBytes m a (leBytes n v)) b = readByte m b) ∧
      readLe (writeBytes m a (leBytes n v)) a n = v % 256 ^ n) ∧
  (∀ (s : State) (loc : Nat) (bs : List Byte), memWf s.mem = true → 1 ≤ bs.length → loc % 128 + bs.length ≤ 128 →
      (s.homeLine (loc / 128)).bad = false → (∀ d, (nth s.dies d []).length ≤ dieLines) → ∀ a, ((s.homeWrite loc bs).homeRead a 1).1
        = [if loc ≤ a ∧ a < loc + bs.length then bs.getD (a - loc) 0 else ((s.homeRead a 1).1).headD 0]) ∧
  (∀ (s t : State) (b x : Nat) (p : Page) (no off : Nat) (bs : List Byte), b < 8 → x < 128 → p.cl ≤ 2 → p.wp ≤ 2 →
      memWf s.mem = true → (s.bay b).lineCapacity x ≠ 0 → off + bs.length ≤ 128 →
      p.loc / 128 = no → (s.homeLine no).bad = false → (s.l2Line no).bad = false → (s.readLine b x p).1.bad = false →
      s.writeSeg b x p (no, off, bs) = (t, none) →
      let old := lineBytes (s.readLine b x p).1.data 0 128
      lineBytes (t.readLine b x p).1.data 0 128 = old.take off ++ bs ++ old.drop (off + bs.length))

/-! ## Every word: guards, streams, encodings, and what an issue leaves alone -/

/-- A word outside the streams that execute its group raises cause 0x003 whatever its guard and operands hold
(03_encoding R72, R73, Table 5). An active word whose own bits are wrong raises a cause, none of theirs lower
(03_encoding R74): it has no other effect. The words that a steward core does not have raise 0x00F there (05_control_registers R147,
R162), where no lower cause stands, as 0x004 does for an operand that a register holds; LNGO, LNNEXT and LNDEF outside CT and SAFE
outside CT raise 0x00E on a tile (R142, R161). -/
def Obligations.OutsideOrMisencodedWordsTrap : Prop :=
  (∀ (i : Instr) (ks : List Nat) (stew : Bool) (s : State),
      streamsOf i = some (ks, stew) → s.executes ks stew = false → exec i s = .next (s.raise 0x003)) ∧
  (∀ (i : Instr) (s : State), Placed i s →
      (∀ h, pHead i = some h → guardP h s.strm = true) → (∀ h, qHead i = some h → guardQ h s.strm ≠ 0) →
      (pHead i).isSome ∨ (qHead i).isSome → formCauses i ≠ [] →
      ∃ c ea, exec i s = .next (s.raise c ea) ∧ ∀ d ∈ formCauses i, c.toNat ≤ d.toNat) ∧
  (∀ (h : Head) (o : Ops) (s : State),
      let nest : Prop := aReg o.d ≠ 0 ∧ (aReg o.d).toNat + (immVal o.a).toNat - 1 ≤ 31 ∧
        ∀ q, q < (immVal o.a).toNat → ∃ k, k < (immVal o.a).toNat ∧ permAt (permVal o) k = q
      let traps (c : Cause) (i : Instr) : Prop := Runs i s → exec i s = .next (s.raise c)
      (s.onSteward = true →
        (∀ i, i = .holdTok h o ∨ i = .holdSem h o ∨ i = .holdBc h o ∨ i = .holdStep h o ∨ i = .safe h o ∨ i = .sysc h o ∨
            i = .lngo h o ∨ i = .lnnext h o ∨ i = .semw h o ∨ i = .mtxl h o ∨ i = .bind h o → traps 0x00F i) ∧
        (∀ bay st, traps 0x00F (.rdv h o bay st)) ∧ (∀ j neg, traps 0x00F (.pbc h o j neg)) ∧
        (∀ tok kt, traps 0x00F (.sems h o tok kt) ∧ traps 0x00F (.mtxu h o tok kt)) ∧ (∀ c, traps 0x00F (.waita h o c)) ∧
        ((∀ n, o.d = .a n → (s.strm.readA n).toNat ≤ 1023) → traps 0x00F (.holdCol h o)) ∧ (nest → traps 0x00F (.lndef h o))) ∧
      (s.onSteward = false → s.strmNo ≠ 0 →
        (∀ i, i = .lngo h o ∨ i = .lnnext h o ∨ i = .safe h o → traps 0x00E i) ∧ (nest → traps 0x00E (.lndef h o))))

/-- A suppressed word of a p-guarded group has no effect, but for WAIT, whose wait stands, and for a command word on a
tile, whose token, unless another command holds it, completes empty at issue + 1 (03_encoding R65; 05_control_registers
R136; 08_memories R244). A fully suppressed word of a q-guarded group has no effect at all (06_vector_rows R174). Both where no write to the guard landed
within the freeze horizon: there a word that reads its guard at its sample raises cause 0x046 (05_control_registers
R144). -/
def Obligations.SuppressedWords : Prop :=
  (∀ (i : Instr) (h : Head) (s : State), Placed i s → pHead i = some h → guardP h s.strm = false →
      s.horizonHit (guardTargets h s) = false → exec i s = .next (match i with
        | .wait _ o => s.delayNext (waitCount o)
        | _ => match ownToken i with
          | some k => if s.onSteward ∨ s.tokBusy k.toNat = true then s else s.post 1 [.tokEmpty k.toNat]
          | none => s)) ∧
  (∀ (i : Instr) (h : Head) (s : State), Placed i s → qHead i = some h → guardQ h s.strm = 0 →
      s.horizonHit (guardTargetsQ h s) = false → exec i s = .next s) ∧
  (∀ (i : Instr) (h : Head) (s : State), samplesGuard i = true → Placed i s → pHead i = some h →
      guardP h s.strm = false → s.horizonHit (guardTargets h s) = true → exec i s = .next (s.raise 0x046))

/-- The guard of the scalar groups is the bit of TT at 4·pa + 2·pb + pc (R65): with all selectors 0, bit 7; TT = 0xFF is
true and TT = 0 false in every case (R66). The guard of the q-register groups is the same truth table at each position
by itself (R65). -/
def Obligations.GuardTruthTable : Prop :=
  ((∀ (h : Head) (u : Strm), guardP h u
      = h.tt.getLsbD (4 * (u.readP h.pa).toNat + 2 * (u.readP h.pb).toNat + (u.readP h.pc).toNat)) ∧
    (∀ (h : Head) (u : Strm), h.tt = 0xFF → guardP h u = true ∧ guardQ h u = BitVec.allOnes 512) ∧
    (∀ (h : Head) (u : Strm), h.tt = 0 → guardP h u = false ∧ guardQ h u = 0)) ∧
  (∀ (h : Head) (u : Strm) (j : Nat), j < 512 → (guardQ h u).getLsbD j
      = h.tt.getLsbD (4 * ((u.readQ h.pa).getLsbD j).toNat + 2 * ((u.readQ h.pb).getLsbD j).toNat
          + ((u.readQ h.pc).getLsbD j).toNat))

/-- FRAME OF EVERY WORD ON A TILE: the issue of a word, whatever it does, changes no byte of memory and nothing of
another bay, of the die caches, of the descriptor store or of a steward core but the causes pending at its own bay's;
and it faults or is refused by no word. What a word does to memory, a later step does for it. -/
def Obligations.IssueStaysInItsBay : Prop :=
  ∀ (i : Instr) (s : State) (b x k : Nat), isWord i = true → OnTile s b x k →
    ∃ t, exec i s = .next t ∧ t.mem = s.mem ∧ t.dies = s.dies ∧ t.desc = s.desc ∧ t.badLines = s.badLines ∧ t.jobs = s.jobs ∧
      t.power = s.power ∧ t.ftime = s.ftime ∧ t.free = s.free ∧ t.wc = s.wc ∧
      (∀ c, c ≠ b → t.bay c = s.bay c) ∧
      (∀ j, j ≠ b → t.steward j = s.steward j) ∧
      (∀ j, ∃ p, t.steward j = { s.steward j with pending := p })

/-- FRAME OF EVERY WORD ON A TILE: at its issue a word changes no register, row, plane, slot, cache line or semaphore of
any tile: every such write lands later, by a write in flight or by a command (02_execution R33). -/
def Obligations.IssueWritesNoRegister : Prop :=
  ∀ (i : Instr) (s t : State) (b x k : Nat), isWord i = true → OnTile s b x k → exec i s = .next t →
    ∀ c y, sameStorage (s.tile c y) (t.tile c y)

/-! ## Writes in flight and landing -/

/-- A write in flight does nothing until it is due: `post` changes only the list of the issuing tile's writes, by one
record due `lat` tc after the issue (02_execution R33). Landing (R33): in tc `u`, a tile whose one write in flight is a
write of a-register `n` of stream `j` holds the new value when the write is due, and the old one before; nothing else of
its registers changes. What one landing write of a scalar register changes: that register of that stream, to that value,
and nothing else of the tile (05_control_registers R127 to R130). What one landing write of a lane predicate, row (as
`mergeRow` merges it), lane, plane part, slot, semaphore, mutex, token or the offset queue changes: that one, to the value the
rules give, and nothing else of the tile (06_vector_rows R168, R175; 07_accumulators R211; 08_memories R233, R236, R244;
10_queues R283; 13_counters R346, R347); a lane taken already raises 0x051 (01_device R16), and a slot that holds an
uncorrectable soft error, which no run makes (log entry 20), is apart. A fill's slot lands as it is (08_memories R244). The clearing of a
safe point keeps the registers, rows and planes that the liveness entry names, by their logical names in each stream, and makes the
others 0, false or NONE (05_control_registers R142; 06_vector_rows R170; 07_accumulators R205; 11_tables R303). That a store into a
poisoned or bad slot first reads it is log entry 16, and that BK and GW writes to one slot land in turn log entry 35, the model's
readings. BIND and ST64 land as OrderingAndEndpointWords says.
A landing write of a control register changes the fields
the register has, and those alone (05_control_registers Tables 3, 4; 15_traps Table 3): on a tile ftm, evsel, pmsel,
bcsel, the loop registers; on a steward core the trap registers, whose reserved bits stay zero. -/
def Obligations.RegisterLandings : Prop :=
  (∀ (s : State) (b x k lat : Nat) (what : List Land) (evs : List (Nat × Nat)), OnTile s b x k →
      s.post lat what evs = s.setTile b x { s.tile b x with pend := (s.tile b x).pend ++
        [{ due := (s.bay b).tclk + lat, issued := (s.bay b).tclk, strm := k, addr := codeAddr k ((s.tile b x).strm k).cur,
           evs := evs, what := what }] }) ∧
  (∀ (y : Bay) (t : Tile) (u x j n : Nat) (v : Word) (r : Pend), j < 9 → n < 32 → r.strm = j → r.evs = [] →
      r.what = [.a j n v] → t.pend = [r] →
      let w := (y.landOn u x t).t
      (r.due ≤ u → nth (w.strm j).a n 0 = v ∧ w.pend = []) ∧
      (u < r.due → nth (w.strm j).a n 0 = nth (t.strm j).a n 0 ∧ w.pend = [r]) ∧
      (∀ m, m ≠ n → nth (w.strm j).a m 0 = nth (t.strm j).a m 0) ∧ (∀ i, i ≠ j → w.strm i = t.strm i) ∧
      (w.strm j).b = (t.strm j).b ∧ (w.strm j).p = (t.strm j).p ∧ (w.strm j).q = (t.strm j).q ∧
      w.rows = t.rows ∧ w.planes = t.planes ∧ w.slots = t.slots) ∧
  (∀ (u : Nat) (t : Tile) (k n : Nat), k < 9 →
      (∀ v, n < 32 → t.apply u (.a k n v) = (t.setStrm k { t.strm k with a := put (t.strm k).a n v }, [], []) ∧
        nth (put (t.strm k).a n v) n 0 = v ∧ ∀ m, m ≠ n → nth (put (t.strm k).a n v) m 0 = nth (t.strm k).a m 0) ∧
      (∀ v, n < 8 → t.apply u (.b k n v) = (t.setStrm k { t.strm k with b := put (t.strm k).b n v }, [], []) ∧
        nth (put (t.strm k).b n v) n 0 = v) ∧
      (∀ v, n < 16 → t.apply u (.p k n v) = (t.setStrm k { t.strm k with p := put (t.strm k).p n v }, [], []) ∧
        nth (put (t.strm k).p n v) n false = v)) ∧
  (∀ (u : Nat) (t : Tile),
      (∀ k n mask v, k < 9 → n < 16 → ∃ q, t.apply u (.q k n mask v)
          = (t.setStrm k { t.strm k with q := put (t.strm k).q n q }, [], []) ∧
        ∀ j, j < 512 → q.getLsbD j = if mask.getLsbD j then v.getLsbD j else (nth (t.strm k).q n 0).getLsbD j) ∧
      (∀ n v, t.apply u (.rowRaw n v) = ({ t with rows := put t.rows n v }, [], []) ∧
        t.apply u (.tileRow n v) = ({ t with rows := put t.rows n v }, [], [])) ∧
      (∀ n act z ftm fz v, t.apply u (.row n act z ftm fz v) = match mergeRow v act z ftm (some (nth t.rows n {})) fz with
        | .ok (w, ev) => ({ t with rows := put t.rows n w }, [], ev)
        | .error c => (t, [(c, 0)], [])) ∧
      (∀ g n rmw data scales tag anchor, sortedFrom t.slots 0 = true → ∃ sl,
        t.apply u (.slot g n rmw data scales tag anchor) = ({ t with slots := sl }, [], []) ∧
        find sl (1024 * g + n) = (if (t.slot g n).put data scales tag anchor = {} then none
          else some ((t.slot g n).put data scales tag anchor)) ∧ ∀ a, a ≠ 1024 * g + n → find sl a = find t.slots a) ∧
      (∀ g ea n v, sortedFrom t.slots 0 = true → ea % 512 + n ≤ 512 → n ≤ 8 → (t.slot g (ea / 512)).poison = false →
        (t.slot g (ea / 512)).bad = false → ∃ sl w,
        t.apply u (.slotBytes g ea n v) = ({ t with slots := sl }, [], []) ∧ find sl (1024 * g + ea / 512) = some w ∧
        (∀ i, i < 4096 → w.data.getLsbD i = if 8 * (ea % 512) ≤ i ∧ i < 8 * (ea % 512) + 8 * n
          then v.getLsbD (i - 8 * (ea % 512)) else (t.slot g (ea / 512)).data.getLsbD i) ∧
        w.seq = (t.slot g (ea / 512)).seq ∧ w.fresh = false ∧ ∀ a, a ≠ 1024 * g + ea / 512 → find sl a = find t.slots a) ∧
      (∀ g n v bcs, sortedFrom t.slots 0 = true → ∃ sl, t.apply u (.slotFill g n v bcs) = ({ t with slots := sl }, [], []) ∧
        find sl (1024 * g + n) = (if v = {} then none else some v) ∧ ∀ a, a ≠ 1024 * g + n → find sl a = find t.slots a) ∧
      (∀ e : Live, ∃ ss rs ps, t.apply u (.clear e) = ({ t with strms := ss, rows := rs, planes := ps }, [], []) ∧
        (∀ k, k < 9 → let old := t.strm k
          let new := nth ss k {}
          let named (i : Nat) : Prop := (e.masks.getD k 0).getLsbD i = true
          (∃ a b p q, new = { old with a := a, b := b, p := p, q := q }) ∧
          (∀ n : BitVec 5, n ≠ 0 → (named n.toNat → new.readA n = old.readA n) ∧ (¬named n.toNat → new.readA n = 0)) ∧
          (∀ n : BitVec 3, (named (32 + n.toNat) → new.readB n = old.readB n) ∧ (¬named (32 + n.toNat) → new.readB n = 0)) ∧
          (∀ n : BitVec 4, n ≠ 0 → (named (40 + n.toNat) → new.readP n = old.readP n) ∧
            (¬named (40 + n.toNat) → new.readP n = false)) ∧
          (∀ n : BitVec 4, n ≠ 0 → 2 ≤ k → k ≤ 5 → new.readQ n = if e.q.getLsbD (16 * (k - 2) + n.toNat) then old.readQ n else 0)) ∧
        (∀ n, n < 256 → let live : Prop := ∃ k r, k < 9 ∧ (t.strm k).physV r = n ∧ e.rows.getLsbD r.toNat = true
          (live → nth rs n {} = nth t.rows n {}) ∧ (¬live → nth rs n {} = {})) ∧
        (∀ n, n < 2 → nth ps n {} = if e.planes.getLsbD n then nth t.planes n {} else {})) ∧
      (∀ n c, (nth t.sems n {}).count.toNat + c.toNat < 2 ^ 32 → t.apply u (.semAdd n c)
        = ({ t with sems := put t.sems n { nth t.sems n {} with count := (nth t.sems n {}).count + c } }, [], [])) ∧
      (∀ n c, 2 ^ 32 ≤ (nth t.sems n {}).count.toNat + c.toNat → t.apply u (.semAdd n c) = (t, [(0x056, 0)], [])) ∧
      (∀ n c, t.apply u (.semSub n c)
        = ({ t with sems := put t.sems n { nth t.sems n {} with count := (nth t.sems n {}).count - c } }, [], [])) ∧
      (∀ n w, t.apply u (.mtxTake n w)
        = ({ t with mtxs := put t.mtxs n { nth t.mtxs n {} with held := true, owner := w } }, [], [])) ∧
      (∀ n, t.apply u (.mtxFree n) = ({ t with mtxs := put t.mtxs n { nth t.mtxs n {} with held := false } }, [], [])) ∧
      (∀ k, t.apply u (.tokOut k) = ({ t with toks := put t.toks k { nth t.toks k {} with out := true } }, [], []) ∧
        ((nth t.toks k {}).out = true → t.apply u (.tokEmpty k) = (t, [], [])) ∧
        ((nth t.toks k {}).out = false → (∀ q ∈ t.pend, Land.tokOut k ∉ q.what) → t.apply u (.tokEmpty k)
          = ({ t with toks := put t.toks k { nth t.toks k {} with empty := true, flt := false } }, [], []))) ∧
      (∀ aw n st v, ((∀ w ∈ t.lanes, w.isAt aw n st u = false) → t.apply u (.lane aw n st v)
          = ({ t with lanes := t.lanes ++ [{ aw := aw, n := n, station := st, tc := u, v := v }] }, [], [])) ∧
        ((∃ w ∈ t.lanes, w.isAt aw n st u = true) → t.apply u (.lane aw n st v) = (t, [(0x051, 0)], []))) ∧
      (∀ n q v, q < 8 → ∃ p, t.apply u (.planePart n q v) = ({ t with planes := put t.planes n p }, [], []) ∧ p.tag = v.md.tag ∧
        ∀ i, i < 32768 → p.data.getLsbD i = if 4096 * q ≤ i ∧ i < 4096 * (q + 1) then v.data.getLsbD (i - 4096 * q)
          else ((nth t.planes n {}).tag == v.md.tag && (nth t.planes n {}).data.getLsbD i)) ∧
      (∀ g n, sortedFrom t.slots 0 = true → ∃ sl, t.apply u (.unfresh g n) = ({ t with slots := sl }, [], []) ∧
        find sl (1024 * g + n) = (if { t.slot g n with fresh := false } = ({} : Slot) then none
          else some { t.slot g n with fresh := false }) ∧ ∀ a, a ≠ 1024 * g + n → find sl a = find t.slots a) ∧
      (∀ v, t.apply u (.xrate v) = ({ t with oq := { t.oq with rate := v } }, [], [])) ∧
      (∀ v, t.apply u (.xoff v) = ({ t with oq := { t.oq with strict := v, freeTc := 0 } }, [], [])) ∧
      t.apply u .xend = ({ t with oq := { t.oq with entries := [], jobs := [], pops := 0, freeTc := 0 } }, [], []) ∧
      (∀ k, t.apply u (.xcnt k 0) = (t, [], [])) ∧
      (∀ k n, n ≠ 0 → let v : Word := BitVec.ofNat 64 (t.oq.jobs.length % 512 * 2 ^ 32 + t.oq.pops.toNat)
        t.apply u (.xcnt k n) = (t.setStrm k { t.strm k with a := put (t.strm k).a n v }, [], []))) ∧
  ((∀ (u : Strm) (v : Word), u.setCr 0x10 v = { u with ftm := v.getLsbD 0 } ∧
      u.setCr 0x12 v = { u with evsel := v.extractLsb' 0 4 } ∧ u.setCr 0x19 v = { u with pmsel := v.extractLsb' 0 6 } ∧
      u.setCr 0x1B v = { u with bcsel := v.extractLsb' 0 4 } ∧ u.setCr 0x02 v = { u with lcnt := v.extractLsb' 0 40 } ∧
      u.setCr 0x03 v = { u with lbndN := v.extractLsb' 0 32, lbndS := v.extractLsb' 32 4 } ∧
      u.setCr 0x04 v = { u with ra := v.extractLsb' 0 4, rp := v.extractLsb' 8 3, rv := v.extractLsb' 16 7 }) ∧
    (∀ (w : Steward) (v : Word),
      (∃ x, w.setCr 0x40 v = { w with tvbase := x } ∧ ∀ i, i < 64 → x.getLsbD i = (decide (12 ≤ i ∧ i < 48) && v.getLsbD i)) ∧
      (∃ x, w.setCr 0x42 v = { w with epc := x } ∧ ∀ i, i < 64 → x.getLsbD i = (decide (4 ≤ i ∧ i < 48) && v.getLsbD i)) ∧
      (∃ x, w.setCr 0x41 v = { w with ecause := x } ∧
        ∀ i, i < 18 → x.getLsbD i = ((decide (i < 9) || decide (16 ≤ i)) && v.getLsbD i)) ∧
      w.setCr 0x43 v = { w with estat := v.extractLsb' 0 3 } ∧ w.setCr 0x44 v = { w with escr := v }))

/-- How a result lands (06_vector_rows R165, R172, R175). A row destination is written at its physical row with the word's z and ftz
and the stream's ftm, a lane destination at the stream's station, its suppressed lanes with the zero of the format. The merge of a
landing row: an element of an active lane is the result's; of the others, zero with .z; else the old row's where it has the result's
tag, the scale of a kept block with it; zero where it is NONE, or poisoned on a page that substitutes zeros (event 12); a poisoned
row else raises 0x080. Kept elements of another format are converted element by element (04_numbers R112, R113), those beyond the
old row's lanes zero, with the writing word's ftz (log entry 33), and count event 11; ACC96 ones to and from the anchor of its row,
those of a block-scaled result as blocks of 32 formed anew; with ftm, of KEY64 or TRIPLE, or kept ACC96 slots of another anchor, they
raise 0x00D. -/
def Obligations.RowMerge : Prop :=
  (∀ (f : BitVec 5) (new : List Nat) (sc : BitVec 256) (anchor : BitVec 16) (old : Row) (act : QReg) (z ftm ftz : Bool),
    1 ≤ f.toNat → f.toNat ≤ 25 → new.length = lanes f → (∀ e ∈ new, e < 2 ^ elemWidth f) →
    let res := mkRow f new sc anchor
    let g := old.md.tag
    let on (i : Nat) : Bool := act.getLsbD (posOf f i)
    let keeps : Prop := z = false ∧ ∃ i, i < lanes f ∧ on i = false
    let el (i : Nat) : Nat := (rowElems old).getD i 0
    let at_ : Int := res.md.anchor.toInt
    let val (i : Nat) : Val := if g = 23 then (accBlockValue (el i) old.md.anchor.toInt).1
      else decodeElem g ftz (if blockScaled g then scaleAt old.md.scales (i / 32) else 127) (el i)
    let lands (ev : List Nat) (kept : Nat → Nat) (scale : Nat → Nat) : Prop :=
      ∃ w, mergeRow res act z ftm (some old) ftz = .ok (w, ev) ∧ w.md.tag = f ∧ w.md.poison = false ∧
        w.md.anchor = res.md.anchor ∧
        (∀ i, i < lanes f → (rowElems w)[i]? = some (if on i then new.getD i 0 else kept i)) ∧
        (blockScaled f = true → ∀ j, j < lanes f / 32 → scaleAt w.md.scales j
          = if on (32 * j) then scaleAt res.md.scales j else scale j)
    let traps (c : Cause) : Prop := mergeRow res act z ftm (some old) ftz = .error c
    (¬keeps → lands [] (fun _ => zeroOf f) (fun _ => 0)) ∧
    (keeps → old.md.poison = true → (old.md.zs = false → traps 0x080) ∧
      (old.md.zs = true → lands [12] (fun _ => zeroOf f) (fun _ => 0))) ∧
    (keeps → old.md.poison = false →
      (g = f → (f ≠ 23 ∨ old.md.anchor = res.md.anchor) → lands [] el (scaleAt old.md.scales)) ∧
      (g = f → f = 23 → old.md.anchor ≠ res.md.anchor → traps 0x00D) ∧
      (g = 0 → lands [] (fun _ => zeroOf f) (fun _ => 0)) ∧
      (g ≠ f → g ≠ 0 → ftm = true ∨ 24 ≤ g.toNat ∨ 24 ≤ f.toNat → traps 0x00D) ∧
      (g ≠ f → g ≠ 0 → g.toNat ≤ 23 → ftm = false →
        (f.toNat ≤ 13 → lands [11] (fun i => if lanes g ≤ i then 0
          else if g = 23 then (accOut f 0 ftz 0 (el i) old.md.anchor.toInt).1 else (convertTo f 0 ftz 0 (val i)).1) (fun _ => 0)) ∧
        (f = 23 → lands [11] (fun i => if lanes g ≤ i then 0 else (accAdd 0 (val i) at_).1) (fun _ => 0)) ∧
        (blockScaled f = true →
          let block (j : Nat) : Nat × List (Nat × List Nat) × List Nat := blockScale f 0 ((List.range 32).map (fun i =>
            (if lanes g ≤ 32 * j + i then Val.zero else val (32 * j + i), 0)))
          lands [11] (fun i => ((block (i / 32)).2.1.getD (i % 32) (0, [])).1 % 2 ^ elemWidth f)
            (fun j => (block j).1 % 256))))) ∧
  (∀ (s : State) (lat st : Nat) (m : VMod) (v : VOut) (n : BitVec 8),
    s.vwrite lat (.v n) m st v
      = s.post lat [.row (s.strm.physV n) v.act m.z s.strm.ftm m.ftz (mkRow v.f v.el v.scales v.anchor)] (tally v.evs)) ∧
  (∀ (s : State) (lat st : Nat) (m : VMod) (v : VOut) (aw : Bool) (n : BitVec 3),
    1 ≤ v.f.toNat → v.f.toNat ≤ 25 → v.el.length = lanes v.f → (∀ e ∈ v.el, e < 2 ^ elemWidth v.f) →
    ∃ w, s.vwrite lat (.lane aw n) m st v = s.post lat [.lane aw n st w] (tally v.evs) ∧ w.md.tag = v.f ∧
      ∀ i, i < lanes v.f → (rowElems w)[i]? = some (if v.act.getLsbD (posOf v.f i) then v.el.getD i 0 else zeroOf v.f))

/-- Register names: a0 reads 0, p0 reads true and q0 reads ones whatever is stored, and a write of one of them is
discarded; a lane predicate is written at the positions of its mask, and with .z is false at the others (06_vector_rows R167, R194); the static names are the physical registers, the rotating ones follow rot, and q-registers rotate as p-registers
do (05_control_registers R127, R128, R130; 06_vector_rows R163, R167). -/
def Obligations.RegisterNames : Prop :=
  ∀ (s : State) (u : Strm) (n : BitVec 5) (m : BitVec 4) (r : BitVec 8) (v : Word) (c : Bool) (k : Nat) (z : Bool) (g e : QReg),
    u.readA 0 = 0 ∧ u.readP 0 = true ∧ u.readQ 0 = BitVec.allOnes 512 ∧
    s.landA 0 v = [] ∧ s.landP 0 c = [] ∧ s.landQ k 0 z g e = [] ∧
    (m ≠ 0 → u.readQ m = nth u.q (u.physP m) 0 ∧
      s.landQ k m z g e = [.q k ((s.curTile.strm k).physP m) (if z then BitVec.allOnes 512 else g) (e &&& g)]) ∧
    (n ≠ 0 → s.landA n v = [.a s.strmNo (s.strm.physA n) v]) ∧
    (m ≠ 0 → s.landP m c = [.p s.strmNo (s.strm.physP m) c]) ∧
    (n.toNat < 16 → u.physA n = n.toNat) ∧
    (16 ≤ n.toNat → u.physA n = 16 + (n.toNat - 16 + 16 - u.ra.toNat) % 16) ∧
    (m.toNat < 8 → u.physP m = m.toNat) ∧
    (8 ≤ m.toNat → u.physP m = 8 + (m.toNat - 8 + 8 - u.rp.toNat) % 8) ∧
    (r.toNat < 128 → u.physV r = r.toNat) ∧
    (128 ≤ r.toNat → u.physV r = 128 + (r.toNat - 128 + 128 - u.rv.toNat) % 128)

/-! ## Sequencing and transfers -/

/-- NOP has no effect; WAIT delays the next word of its stream by its count; after HALT the stream issues nothing more,
and a pending transfer has no effect (05_control_registers R134, R136; 02_execution R51). -/
def Obligations.SequencingWords : Prop :=
  (∀ h o s, Runs (.nop h o) s → exec (.nop h o) s = .next s) ∧
  (∀ h o s fn off base, Runs (.wait h o) s → s.strm.next = .word fn off base →
    exec (.wait h o) s = .next (s.setStrm { s.strm with next := .word fn off (base + waitCount o) })) ∧
  (∀ h o s, Runs (.halt h o) s → exec (.halt h o) s = .next (s.setStrm { s.strm with next := .halted, xfer := none }))

/-- BTGT writes its branch target at issue + 1: an offset in the current function, with .fn a function, on a steward
core a byte address (05_control_registers R137, R162). BR takes the transfer: its target issues five tc later (R133,
R138). A transfer taken in the delay slots of another raises cause 0x041, and one to a bad target 0x047 (R134, R135);
the lower wins. -/
def Obligations.BranchWords : Prop :=
  ((∀ h o s n, Runs (.btgt h o false) s → o.d = .b n → s.onSteward = false →
      exec (.btgt h o false) s = .next (s.post 1 [.b s.strmNo n.toNat
        (0#8 ++ BitVec.ofNat 24 s.strm.cur.1 ++ (s.uintVal o.a o.c).extractLsb' 0 32)])) ∧
    (∀ h o s n, Runs (.btgt h o true) s → o.d = .b n → s.onSteward = false → (s.uintVal o.a o.c).extractLsb' 24 8 = 0#8 →
      exec (.btgt h o true) s = .next (s.post 1 [.b s.strmNo n.toNat (0#8 ++ (s.uintVal o.a o.c).extractLsb' 0 24 ++ 0#32)])) ∧
    (∀ h o s n, Runs (.btgt h o false) s → o.d = .b n → s.onSteward = true →
      exec (.btgt h o false) s = .next (s.post 1 [.b s.strmNo n.toNat (((s.uintVal o.a o.c).extractLsb' 0 48).setWidth 64)])) ∧
    (∀ h o s n, Runs (.br h o) s → o.d = .b n → s.inDelaySlot = false → s.badTarget (s.strm.readB n) true true = false →
      exec (.br h o) s = .next (s.setStrm { s.strm with xfer := some (if s.onSteward
        then { fn := 0, off := ((s.strm.readB n).extractLsb' 0 48).toNat, tc := s.tc }
        else { fn := (s.strm.readB n).extractLsb' 32 24, off := ((s.strm.readB n).extractLsb' 0 32).toNat, tc := s.tc }) }))) ∧
  ((∀ h o s n, Runs (.br h o) s → o.d = .b n → s.inDelaySlot = true → exec (.br h o) s = .next (s.raise 0x041)) ∧
    (∀ h o s n, Runs (.br h o) s → o.d = .b n → s.inDelaySlot = false → s.badTarget (s.strm.readB n) true true = true →
      exec (.br h o) s = .next (s.raise 0x047)))

/-- RDV, SAFE, CALL and RET of a tile are joint words: the word is recorded, and the close of the tc resolves the
records of all streams together (R139 to R142; 02_execution R50). CALL asks that its function is staged in every cluster or can be; a
CALL or RET with a cause of its own joins and raises it, the lowest of them (R139): in delay slots 0x041, after a write to what its
sample reads 0x046, for a bad target 0x047, for a callee that cannot be staged 0x049 or 0x087 (R134, R135, R140). SAFE outside CT raises 0x00E (R142). At the close of a tc a joint word that the
tile's streams (for a bay rendezvous and SAFE, the bay's) do not match raises 0x042, 0x043 or 0x044, a SAFE on a tile that is not empty
0x045, a body absent in the callee 0x047; of the causes of one word the lowest stands (03_encoding R74), and the last message of a source that leaves more
than four values in its channel raises 0x055 against its XSND (10_queues R289). Without a trap each CALL and RET transfers, a CALL with
its return point in b7, the first word that its transfer keeps from issuing, a step
rendezvous posts the arrival, and a safe point clears every tile one tc later, but what the liveness table names at the word where its
CT stands. That 0x045 is raised by the SAFE of each tile that is not empty, and by no other, is the model's reading (log entry 40);
that CALLs of one tc share the carve-out is log
entry 89. On a
steward core CALL and RET are transfers of the one stream: CALL writes the return address to b7 at issue + 1 (R162). -/
def Obligations.JointAndCallWords : Prop :=
  ((∀ h o bay st s, Runs (.rdv h o bay st) s → s.onSteward = false →
      exec (.rdv h o bay st) s = .next (s.join (.rdv bay st))) ∧
    (∀ h o s b x, Runs (.safe h o) s → s.core = .tile b x 0 → exec (.safe h o) s = .next (s.join .safe)) ∧
    (∀ h o s b x k, Runs (.safe h o) s → s.core = .tile b x k → k ≠ 0 → exec (.safe h o) s = .next (s.raise 0x00E)) ∧
    (∀ h o s b x k n, Runs (.call h o) s → s.core = .tile b x k → k < 9 → o.d = .b n → s.inDelaySlot = false →
      s.badTarget (s.strm.readB n) false false = false → s.lateWrite (guardTargets h s ++ [.b k n.toNat]) = false →
      let fn := (s.strm.readB n).extractLsb' 32 24
      (∃ n, s.calleeSize b fn = some n ∧ s.fitsAll b fn n = true) →
      exec (.call h o) s = .next (s.join (.call ((s.strm.readB n).extractLsb' 32 24) 0))) ∧
    (∀ h o s b x k n, Runs (.ret h o) s → s.core = .tile b x k → k < 9 → o.d = .b n → s.inDelaySlot = false →
      s.badReturn (s.strm.readB n) = false →
      exec (.ret h o) s = .next (s.join (.ret ((s.strm.readB n).extractLsb' 32 24) ((s.strm.readB n).extractLsb' 0 32).toNat))) ∧
    (∀ h o s b x k n, Runs (.ret h o) s → s.core = .tile b x k → k < 9 → o.d = .b n → s.inDelaySlot = false →
      s.badReturn (s.strm.readB n) = true →
      exec (.ret h o) s = .next ((s.join (.ret ((s.strm.readB n).extractLsb' 32 24)
        ((s.strm.readB n).extractLsb' 0 32).toNat)).raise 0x047)) ∧
    (∀ h o s b x k n, Runs (.ret h o) s → s.core = .tile b x k → k < 9 → o.d = .b n → s.inDelaySlot = true →
      exec (.ret h o) s = .next ((s.join (.ret ((s.strm.readB n).extractLsb' 32 24)
        ((s.strm.readB n).extractLsb' 0 32).toNat)).raise 0x041)) ∧
    (∀ h o s b x k n, Runs (.call h o) s → s.core = .tile b x k → k < 9 → o.d = .b n →
      let fn := (s.strm.readB n).extractLsb' 32 24
      let late := s.lateWrite (guardTargets h s ++ [.b k n.toNat])
      let bad := s.badTarget (s.strm.readB n) false false
      let raises (c : Cause) (ea : Sys2Proof.Word) : Prop := exec (.call h o) s = .next ((s.join (.call fn 0)).raise c ea)
      (s.inDelaySlot = true → raises 0x041 0) ∧
      (s.inDelaySlot = false → late = true → raises 0x046 0) ∧
      (s.inDelaySlot = false → late = false →
        (bad = true → raises 0x047 0) ∧
        (bad = false → (s.calleeSize b fn = none → raises 0x087 (s.stageFault b fn.toNat)) ∧
          ∀ m, s.calleeSize b fn = some m → s.fitsAll b fn m = false → raises 0x049 0))) ∧
    (∀ (s : State) b x k j, s.core = .tile b x k → s.join j = s.setBay b { s.bay b with joints := (s.bay b).joints ++ [(x, k, j)] })) ∧
  ((∀ h o s k n, Runs (.call h o) s → s.core = .steward k → o.d = .b n → s.inDelaySlot = false →
      s.badTarget (s.strm.readB n) false false = false →
      exec (.call h o) s = .next ((s.post 1 [.b 0 7 (BitVec.ofNat 64 (s.keptFrom s.core 0 s.strm.cur.2 s.tc))]).transfer 0
        ((s.strm.readB n).extractLsb' 0 48).toNat)) ∧
    (∀ h o s k n, Runs (.ret h o) s → s.core = .steward k → o.d = .b n → s.inDelaySlot = false →
      s.badTarget (s.strm.readB n) false true = false →
      exec (.ret h o) s = .next (s.transfer 0 ((s.strm.readB n).extractLsb' 0 48).toNat))) ∧
  (∀ (y : Bay) (x : Nat) (fn : BitVec 24) off st,
    let all (x : Nat) (p : Joint → Prop) : Prop :=
      ∀ k, k < 9 → ((y.tile x).strm k).next = .halted ∨ ∃ j, y.jointOf x k = some j ∧ p j
    (y.matched x (.rdv false st) = true ↔ all x (fun j => j = .rdv false st)) ∧
    (y.matched x (.rdv true st) = true ↔ ∀ z, z < 128 → all z (fun j => j = .rdv true st)) ∧
    (y.matched x (.call fn off) = true ↔ all x (fun j => ∃ o, j = .call fn o)) ∧
    (y.matched x (.ret fn off) = true ↔ all x (fun j => ∃ o, j = .ret fn o)) ∧
    (y.matched x .safe = true ↔ ∀ z, z < 128 → y.jointOf z 0 = some .safe)) ∧
  (∀ (s : State) (b x k : Nat) (w : Joint), let y := s.bay b
    let raises (c : Cause) : Prop := ∃ r, s.jointTraps b (x, k, w) = [r] ∧ r.cause = c ∧ r.tile = x ∧ r.strm = k
    (y.matched x w = false → raises (match w with
      | .rdv _ _ => 0x042 | .call _ _ => 0x043 | .ret _ _ => 0x043 | .safe => 0x044)) ∧
    (y.matched x w = true → (w = .safe → y.emptyAt x y.tclk = false → raises 0x045) ∧
      (∀ fn off, w = .call fn off ∨ w = .ret fn off → s.bodyLength b x fn k = none → raises 0x047) ∧
      ((∃ st sc, w = .rdv st sc) ∨ (w = .safe ∧ y.emptyAt x y.tclk = true) ∨
        (∃ fn off, (w = .call fn off ∨ w = .ret fn off) ∧ (s.bodyLength b x fn k).isSome = true) →
        s.jointTraps b (x, k, w) = []))) ∧
  (∀ (s : State) (b : Nat) (r : TrapRec), let y := s.bay b
    let joint (q : TrapRec) : Prop := ∃ j ∈ y.joints, q ∈ s.jointTraps b j
    let same (q : TrapRec) : Prop := q.tile = r.tile ∧ q.strm = r.strm ∧ q.addr = r.addr
    r ∈ s.closeTraps b ↔ (r ∈ y.traps ∧ ∀ q, joint q → same q → r.cause.toNat ≤ q.cause.toNat) ∨
      (joint r ∧ ∀ q ∈ y.traps, same q → r.cause.toNat < q.cause.toNat) ∨
      ∃ x, x < 128 ∧ ∃ m ∈ (y.tile x).arrived, 4 < (nth (y.tile x).chans m.src []).length ∧
        (∀ q ∈ (y.tile x).arrived, q.src = m.src → q.tc ≤ m.tc) ∧ r = { cause := 0x055, tile := m.srcTile, strm := 8, addr := m.addr, ea := 0 }) ∧
  (∀ (y : Bay) (x t : Nat), let w := y.tile x
    y.emptyAt x t = true ↔ (∀ r ∈ w.pend, r.due ≤ t ∨ r.issued = t) ∧ w.mx = [] ∧ w.lanes = [] ∧ w.oq.jobs = [] ∧ w.inbox = [] ∧
      (∀ c ∈ w.chans.toList, c = []) ∧ (∀ k e, k < 9 → (w.strm k).xfer = some e → e.tc + 4 ≤ t) ∧ ∀ p ∈ y.issued, p.1 = x → p.2 = 0) ∧
  (∀ (s : State) (c : CoreId) (fn : BitVec 24) (last fuel off base t : Nat), let stride := match c with
      | .tile _ _ _ => 1
      | .steward _ => 16
    s.following c fn last 0 off base = [] ∧
    (s.fetchAt c fn off = none → s.following c fn last fuel off base = []) ∧
    (∀ w, s.fetchAt c fn off = some w → let due := base + (headOf w).idle.toNat
      s.following c fn last (fuel + 1) off base
        = if due ≤ last then (off, due) :: s.following c fn last fuel (off + stride) (due + 1 + extraWait w) else []) ∧
    s.keptFrom c fn off t = off + stride * ((s.following c fn (t + 4) 5 (off + stride) (t + 1)).length + 1)) ∧
  (∀ (y : Bay) (x : Nat) (fn : BitVec 24) (off : Nat), let e := y.liveAt x fn off
    (∀ f, y.fnOf x fn = some f → (∀ l, f.live.find? (fun l => l.off == off) = some l → e = l) ∧
      (f.live.find? (fun l => l.off == off) = none → e.masks = [] ∧ e.rows = 0 ∧ e.q = 0 ∧ e.planes = 0)) ∧
    (y.fnOf x fn = none → e.masks = [] ∧ e.rows = 0 ∧ e.q = 0 ∧ e.planes = 0)) ∧
  (∀ (s : State) (b : Nat), b < 8 → let y := s.bay b
    y.traps = [] → (s.setBay b (y.mapTiles (fun _ t => t.strictPush y.tclk))).closeTraps b = [] →
    let u := s.closeTc b
    (u.bay b).tclk = y.tclk + 1 ∧ (u.bay b).joints = [] ∧ (u.bay b).traps = [] ∧
    (∀ x k fn off w, x < 128 → k < 9 → (x, k, w) ∈ y.joints → w = .call fn off ∨ w = .ret fn off →
      (∀ v, (x, k, v) ∈ y.joints → v = w) →
      ((u.tile b x).strm k).xfer = some ({ fn := fn, off := off, tc := y.tclk } : Xfer) ∧
      (w = .call fn off → ∃ r ∈ (u.tile b x).pend, r.due = y.tclk + 1 ∧ r.strm = k ∧ ∃ v : Sys2Proof.Word, r.what = [.b k 7 v] ∧
        v.extractLsb' 32 24 = BitVec.ofNat 24 ((y.tile x).strm k).cur.1 ∧
        ((∀ j ∈ y.joints, ∀ f o, j.2.2 ≠ .ret f o) → v.extractLsb' 0 32 = BitVec.ofNat 32 (s.keptFrom (.tile b x k)
          (BitVec.ofNat 24 ((y.tile x).strm k).cur.1) ((y.tile x).strm k).cur.2 y.tclk)))) ∧
    (u.bay b).arrived = y.arrived + (if y.joints.any (fun j => j.2.2 == .rdv true true) then 1 else 0) ∧
    (y.joints.any (fun j => j.2.2 == .safe) = true → (u.bay b).safeAt = some y.tclk ∧
      ∀ x, x < 128 → ∃ r ∈ (u.tile b x).pend, r.due = y.tclk + 1 ∧ ∃ e, r.what = [.clear e] ∧
        ((∀ j ∈ y.joints, j.2.2 = .safe) →
          e = y.liveAt x (BitVec.ofNat 24 ((y.tile x).strm 0).cur.1) ((y.tile x).strm 0).cur.2)) ∧
    (y.joints.any (fun j => j.2.2 == .safe) = false → (u.bay b).phase = y.phase))

/-- Protected cycles: HOLD words and elastic pops (05_control_registers R143, R144, Table 9; 02_execution R35, R36). The condition of
a word has its operands, guard and queue mode read in what its sample saw, its register names under the rotations of its issue; a
suppressed word has none, but for a pop, which then pops nothing. The samples of tc t + 6 see the bay at the start of tc t; a
condition that they find false is a wait of the tc, as is a callee that they do not find resident (R140), and WAITA always, whose
observation ends it (09_ordering R271). A pop's count takes in those of the earlier streams of its tc (10_queues R280). When a HOLD
issues, nothing remains to do, and no state changes
(R143), where no write landed on what it reads within its freeze horizon (R144: else 0x046), a semaphore holds its count and has not
overflowed (13_counters R346, R347: else 0x057, 0x056), and a collective was accepted in time (12_endpoints R328: else 0x100; an id
above 1,023 is 0x004). That a sample is one view of the bay, in which words are looked up once they are known, is the model's reading
(log entry 19). -/
def Obligations.HoldWords : Prop :=
  ((∀ h o s, Runs (.holdTok h o) s → s.onSteward = false →
    let hit := s.horizonHit (guardTargets h s ++ selTargets o.d s ++ maskTargets (s.uintVal o.d o.c))
    exec (.holdTok h o) s = .next (if hit then s.raise 0x046 else s)) ∧
  (∀ h o s n, Runs (.holdSem h o) s → s.onSteward = false → o.d = .imm n →
    let hit := s.horizonHit (guardTargets h s ++ selTargets o.a s ++ [.sem n.toInt.toNat])
    let m := s.sem n.toInt.toNat
    exec (.holdSem h o) s = .next (if hit then s.raise 0x046 else if m.ovf then s.raise 0x056
      else if m.count.toNat < (s.intVal o.a o.c).toNat then s.raise 0x057 else s)) ∧
  (∀ h o s, Runs (.holdBc h o) s → s.onSteward = false →
    exec (.holdBc h o) s = .next (if s.horizonHit (guardTargets h s ++ selTargets o.a s) then s.raise 0x046 else s)) ∧
  (∀ h o s, Runs (.holdStep h o) s → s.onSteward = false →
    exec (.holdStep h o) s = .next (if s.horizonHit (guardTargets h s) then s.raise 0x046 else s)) ∧
  (∀ h o s b x k, Runs (.holdCol h o) s → s.core = .tile b x k → (s.intVal o.d o.c).toNat ≤ 1023 →
    exec (.holdCol h o) s = .next (if s.horizonHit (guardTargets h s ++ selTargets o.d s) then s.raise 0x046
      else if (s.bay b).acceptedBy (s.intVal o.d o.c).toNat s.tc then s else s.raise 0x100)) ∧
  (∀ h o s n, Runs (.holdCol h o) s → s.onSteward = false → o.d = .a n → 1023 < (s.strm.readA n).toNat →
    exec (.holdCol h o) s = .next (s.raise 0x004))) ∧
  (∀ (h : Head) (o : Ops) (s : State),
    let has (i : Instr) (c : Cond) : Prop := formCauses i = [] → s.condOf i = if guardP h s.strm then some c else none
    let pops (i : Instr) (on : Bool) (n : Nat) : Prop := formCauses i = [] →
      s.condOf i = if s.curTile.oq.strict then none else some (.pop (if on then n else 0))
    has (.holdTok h o) (.tok (s.uintVal o.d o.c)) ∧
    (∀ n, o.d = .imm n → has (.holdSem h o) (.sem (BitVec.ofNat 4 n.toInt.toNat) (s.intVal o.a o.c)) ∧
      has (.semw h o) (.semw (BitVec.ofNat 4 n.toInt.toNat) ((s.uintVal o.a o.c).setWidth 32)) ∧
      has (.holdBc h o) (.bc (BitVec.ofNat 4 n.toInt.toNat) (s.intVal o.a o.c)) ∧
      has (.mtxl h o) (.mtx (BitVec.ofNat 3 n.toInt.toNat))) ∧
    has (.holdStep h o) .step ∧ has (.holdCol h o) (.col (s.intVal o.d o.c)) ∧
    (∀ b x, s.core = .tile b x 0 → ∀ c : BitVec 3, has (.waita h o c) (.watch (s.regOf o.d) (s.intVal o.a o.c)
      (match o.b with
        | .none => BitVec.allOnes 64
        | m => s.uintVal m o.c) (c.setWidth 4))) ∧
    (∀ b x g chk, s.core = .tile b x 1 → pops (.bgth h o g chk) (guardP h s.strm) 1) ∧
    (∀ b x m, s.core = .tile b x 2 → pops (.mmas h o m) (guardQ h s.strm != 0) 32) ∧
    (∀ b x kd g, s.core = .tile b x 7 →
      pops (.ggth h o kd g) (guardP h s.strm) ((s.regOf o.b).extractLsb' 0 7).toNat)) ∧
  (∀ (v : View) (y : Bay) (x u : Nat), let t := v.tile x
    let w := y.tile x
    let ended : Prop := (∃ e ∈ w.hist, v.tc ≤ e.1 ∧ e.2 = .xend) ∨ ∃ r ∈ w.pend, r.due ≤ u ∧ .xend ∈ r.what
    (∀ mask, v.holds y x u (.tok mask) = true ↔ ∀ k, k < 64 → mask.getLsbD k = true → (nth t.toks k {}).out = false) ∧
    (∀ n c, v.holds y x u (.sem n c) = true ↔ c.toNat ≤ (nth t.sems n.toNat {}).count.toNat) ∧
    (∀ n c, v.holds y x u (.semw n c) = true ↔ c.toNat ≤ (nth t.sems n.toNat {}).count.toNat) ∧
    (∀ m, v.holds y x u (.mtx m) = !(nth t.mtxs m.toNat {}).held) ∧
    (∀ j c, v.holds y x u (.bc j c) = true ↔ c.toNat ≤ (nth (nth v.bcs (x / 16) (Vector.replicate 16 0)) j.toNat 0).toNat) ∧
    (v.holds y x u .step = true ↔ y.arrived ≤ v.completed) ∧
    (∀ id, v.holds y x u (.col id) = true ↔ y.acceptedBy id.toNat u = false ∨ id.toNat ∈ v.delivered) ∧
    (∀ n, v.holds y x u (.pop n) = true ↔
      (ended → n = 0) ∧ (¬ended → n ≤ t.oq.entries.length - (w.oq.taken - t.oq.taken))) ∧
    (∀ fn, v.holds y x u (.resident fn) = true ↔ fn ∈ v.resident) ∧
    (∀ a val mask c, v.holds y x u (.watch a val mask c) = true ↔ ∃ f, w.watch = some (u, .watch a val mask c, f))) ∧
  (∀ (y : Bay) (u x : Nat), x < 128 → let v := y.look u
    let t := y.tile x
    v.tc = u ∧ v.tile x = { strms := t.strms, toks := t.toks, sems := t.sems, mtxs := t.mtxs, oq := t.oq } ∧
    (∀ c j, c < 8 → nth (nth v.bcs c (Vector.replicate 16 0)) j 0 = nth (y.cluster c).bc j 0) ∧ v.completed = y.completed ∧
    (∀ id, id ∈ v.delivered ↔ ∃ c ∈ y.ep.colls, c.delivered = true ∧ c.id.toNat = id) ∧
    (∀ fn, fn ∈ v.resident ↔ ∀ c, c < 8 → y.hasFn c fn = true) ∧
    ((∀ w ∈ y.views, w.1 ≠ u + 6) → (y.takeSamples u).viewAt (u + 6) = v)) ∧
  (∀ (s : State) (b x k u : Nat) (cur : Nat × Nat), b < 8 → x < 128 → k < 9 → let v := ((s.bay b).viewAt u).tile x
    let a := s.asSampled b x k u cur
    a.core = .tile b x k ∧ a.curTile.oq = v.oq ∧
    a.strm = { nth v.strms k {} with cur := cur, ra := ((s.tile b x).rotAt k u).1, rp := ((s.tile b x).rotAt k u).2 } ∧
    (∀ w i, s.fetchAt (.tile b x k) (BitVec.ofNat 24 cur.1) cur.2 = some w → decode w = .ok i →
      s.badFetch (.tile b x k) (BitVec.ofNat 24 cur.1) cur.2 = false → s.condAt b x k u cur = a.condOf i) ∧
    ((∀ r ∈ (s.tile b x).pend, r.due ≤ u → ∀ v, .cr k 0x04 v ∉ r.what) →
      (s.tile b x).rotAt k u = (((s.tile b x).strm k).ra, ((s.tile b x).strm k).rp)) ∧
    (∀ r v, (s.tile b x).pend = [r] → r.due ≤ u → r.what = [.cr k 0x04 v] →
      (s.tile b x).rotAt k u = (v.extractLsb' 0 4, v.extractLsb' 8 3))) ∧
  (∀ (s : State) (b u : Nat), let y := s.bay b
    let v := y.viewAt u
    let own (x k : Nat) : Option Cond := match s.dueWord (.tile b x k) ((s.tile b x).strm k) u with
      | none => none
      | some (fn, off, _) => s.condAt b x k u (fn.toNat, off)
    let pops (x k : Nat) : Nat := match own x k with
      | some (.pop n) => n
      | _ => 0
    (∀ x, s.condsOf b x u = (List.range 9).filterMap (fun k => match own x k with
      | none => none
      | some (.pop n) => some (k, .pop (((List.range k).map (pops x)).sum + n))
      | some c => some (k, c))) ∧
    ∀ w : Wait, w ∈ s.waitsAt b u ↔
      (w.ok = false ∧ w.tile < 128 ∧ (w.strm, w.cond) ∈ s.condsOf b w.tile u ∧
        (w.cond.isWatch = true ∨ v.holds y w.tile u w.cond = false)) ∨
      ∃ e ∈ y.entering, e.due = u ∧ ((y.tile e.tile).strm e.strm).next ≠ .halted ∧ e.fn ∉ v.resident ∧
        w = { tile := e.tile, strm := e.strm, cond := .resident e.fn })

/-- The words whose effect is a trap: TRAP n raises 0x030 + n (R145), FAN in native code 0x00C, a reserved major opcode
0x000 when active, an illegal one 0x001 and a portable block header 0x007 always (03_encoding R73). SYSC appends its
record to the bay's steward request queue: a in [63:0], n in [79:64], the stream in [87:80], lidx from bit 88, tclk in
[191:128], the milestone above, and the bay notes that the record is of this wc (15_traps R383); a full queue raises 0x140 and takes nothing (R146). HNT has no effect in any case; PFI,
active on a tile, adds the function its literal names to the cluster's queue where that is a function of the rank
neither in the cluster's code store nor queued and the queue has room, and otherwise changes a performance counter or nothing; it never traps
(03_encoding R76; 10_queues R288). That reserved opcodes and PFI are guarded over the p registers, which R65 says of neither, is the
model's choice (log entry 91), as is that FAN raises 0x00C whatever its bits [19:0] hold (log entry 103). -/
def Obligations.TrapRequestAndHintWords : Prop :=
  ((∀ h o s n, Runs (.trap h o) s → o.d = .imm n → exec (.trap h o) s = .next (s.raise (0x030 + n.setWidth 9))) ∧
    (∀ h rest s, Runs (.fan h rest) s → exec (.fan h rest) s = .next (s.raise 0x00C)) ∧
    (∀ h maj min rest s, guardP h s.strm = true → exec (.reservedMajorOpcode h maj min rest) s = .next (s.raise 0x000)) ∧
    (∀ h maj min rest s, guardP h s.strm = false → exec (.reservedMajorOpcode h maj min rest) s = .next s) ∧
    (∀ h maj min rest s, exec (.illegalMajorOpcode h maj min rest) s = .next (s.raise 0x001)) ∧
    (∀ h min rest s, exec (.portableBlockHeader h min rest) s = .next (s.raise 0x007))) ∧
  ((∀ h o s b x k n a, Runs (.sysc h o) s → s.core = .tile b x k → o.d = .imm n → o.a = .a a →
      (s.bay b).sysq.length < 256 →
      exec (.sysc h o) s = .next (s.setBay b { s.bay b with
        sysq := (s.bay b).sysq ++ [syscRecord (s.strm.readA a) n.toInt.toNat k (s.tile b x).lidx.toNat (s.bay b).tclk
          (s.crRead b x k 0 0 0x0C)]
        sysFresh := freshen s.wc (s.bay b).sysFresh })) ∧
    (∀ h o s b x k, Runs (.sysc h o) s → s.core = .tile b x k → 256 ≤ (s.bay b).sysq.length →
      exec (.sysc h o) s = .next (s.raise 0x140))) ∧
  ((∀ h maj min rest s, exec (.hnt h maj min rest) s = .next s) ∧
    (∀ h min rest s, (s.onSteward = true ∨ guardP h s.strm = false ∨ rest.getLsbD 32 = false) →
      exec (.pfi h min rest) s = .next s) ∧
    (∀ h min rest s b x k, s.core = .tile b x k → guardP h s.strm = true → rest.getLsbD 32 = true →
      (s.bay b).fnCount ≤ (rest.extractLsb' 0 32).toNat → exec (.pfi h min rest) s = .next s) ∧
    (∀ h min rest s b x k fn, s.core = .tile b x k → guardP h s.strm = true → rest.getLsbD 32 = true →
      (rest.extractLsb' 0 32).toNat < (s.bay b).fnCount → fn = BitVec.ofNat 24 (rest.extractLsb' 0 32).toNat →
      let y := s.bay b
      let c := y.cluster (x / 16)
      exec (.pfi h min rest) s = if y.hasFn (x / 16) fn = false ∧ c.prefetch.contains fn = false ∧ c.prefetch.length < 16
        then .next (s.setBay b (y.setCluster (x / 16) { c with prefetch := c.prefetch ++ [fn] }))
        else .next (s.setBay b (y.count 44))))

/-- LPSET with N trips and s stages (R155): for N > 0 it starts the loop (lcnt 0, lbnd N and s, rot 0, only the first
stage predicate true); for N = 0 it clears loop and stage predicates and transfers to its exit. LPEND (R156) rotates by
one, and continues with the next iteration's stage predicates and a transfer to the head, or ends the loop; with no loop
it does nothing. The stage predicates are written by physical number (log entry 21). LNDEF defines CT's nest from the
trip counts its registers hold, at slot 0 (R159); LNGO starts the walk at slot 0 and writes the slot's predicate and
indices, or over an empty nest transfers to its exit; LNNEXT goes to the next slot and transfers to the head, or ends
the nest (R160). What these write: lcnt, lbnd and rot; a stage predicate's p-register and, in MX, VA, VB and SF, the q-register of
its number, all ones or zero (06_vector_rows R169); the slot's predicate, true while the slot is one of this tile's own trips, and
each loop's index, the innermost counting fastest, or zero. A nest of 2^48 trips or more raises 0x048. The nest stands from the issue of LNDEF on (log entry 49). -/
def Obligations.LoopWords : Prop :=
  ((∀ h o s n, Runs (.lpset h o) s → o.d = .b n → s.tripCount o ≠ 0 →
      exec (.lpset h o) s = .next (s.post 1 (s.landLoop 0 (s.tripCount o) (immVal o.b).toNat 0 ++
        s.landStage ((List.range 8).map (fun j => (8 + j, j == 0)))))) ∧
    (∀ h o s n, Runs (.lpset h o) s → o.d = .b n → s.tripCount o = 0 → s.inDelaySlot = false →
      s.badTarget (s.strm.readB n) true true = false →
      exec (.lpset h o) s = .next ((s.post 1 (s.landLoop 0 0 0 0 ++
        s.landStage ((List.range 8).map (fun j => (8 + j, false))))).transferTo (s.strm.readB n))) ∧
    (∀ h o s, Runs (.lpend h o) s → s.strm.lbndS = 0 → exec (.lpend h o) s = .next s) ∧
    (∀ h o s n, Runs (.lpend h o) s → o.d = .b n → s.strm.lbndS ≠ 0 → s.inDelaySlot = false →
      s.badTarget (s.strm.readB n) true true = false →
      s.strm.lcnt.toNat + 1 < s.strm.lbndN.toNat + s.strm.lbndS.toNat - 1 →
      let i := s.strm.lcnt.toNat + 1
      let rp := (s.strm.rp.toNat + 1) % 8
      exec (.lpend h o) s = .next ((s.post 1
        (s.landLoop i s.strm.lbndN.toNat s.strm.lbndS.toNat
            (rotVal ((s.strm.ra.toNat + 1) % 16) rp ((s.strm.rv.toNat + 1) % 128)) ++
          s.landStage ((List.range s.strm.lbndS.toNat).map (fun j => (8 + (j + 8 - rp) % 8,
            decide (j ≤ i) && decide (i - j < s.strm.lbndN.toNat)))))).transferTo (s.strm.readB n))) ∧
    (∀ h o s, Runs (.lpend h o) s → s.strm.lbndS ≠ 0 →
      s.strm.lbndN.toNat + s.strm.lbndS.toNat - 1 ≤ s.strm.lcnt.toNat + 1 →
      let rp := (s.strm.rp.toNat + 1) % 8
      exec (.lpend h o) s = .next (s.post 1
        (s.landLoop 0 0 0 (rotVal ((s.strm.ra.toNat + 1) % 16) rp ((s.strm.rv.toNat + 1) % 128)) ++
          s.landStage ((List.range 8).map (fun j => (8 + (j + 8 - rp) % 8, false))))))) ∧
  ((∀ h o s b x ab, Runs (.lndef h o) s → s.core = .tile b x 0 → o.d = .a ab → ab ≠ 0 →
      ab.toNat + (immVal o.a).toNat - 1 ≤ 31 →
      (∀ q, q < (immVal o.a).toNat → ∃ k, k < (immVal o.a).toNat ∧ permAt (permVal o) k = q) →
      tripProduct (s.nestTrips ab (immVal o.a).toNat) < 2 ^ 48 →
      exec (.lndef h o) s = .next (s.setStrm { s.strm with nest := {
        n := BitVec.ofNat 8 (immVal o.a).toNat, perm := permVal o, ab := ab.setWidth 8,
        t := s.nestTrips ab (immVal o.a).toNat ++ List.replicate (4 - (immVal o.a).toNat) 0, j := 0 } })) ∧
    (∀ h o s b x ab, Runs (.lndef h o) s → s.core = .tile b x 0 → o.d = .a ab → ab ≠ 0 →
      ab.toNat + (immVal o.a).toNat - 1 ≤ 31 →
      (∀ q, q < (immVal o.a).toNat → ∃ k, k < (immVal o.a).toNat ∧ permAt (permVal o) k = q) →
      2 ^ 48 ≤ tripProduct (s.nestTrips ab (immVal o.a).toNat) → exec (.lndef h o) s = .next (s.raise 0x048)) ∧
    (∀ h o s b x p n, Runs (.lngo h o) s → s.core = .tile b x 0 → o.d = .p p → o.a = .b n →
      s.strm.nest.slots (s.bay b).pt ≠ 0 →
      exec (.lngo h o) s = .next ((s.setStrm { s.strm with nest := { s.strm.nest with j := 0 } }).post 1
        (s.landNest p { s.strm.nest with j := 0 } 0 true))) ∧
    (∀ h o s b x p n, Runs (.lngo h o) s → s.core = .tile b x 0 → o.d = .p p → o.a = .b n →
      s.strm.nest.slots (s.bay b).pt = 0 → s.inDelaySlot = false → s.badTarget (s.strm.readB n) true true = false →
      exec (.lngo h o) s = .next (((s.setStrm { s.strm with nest := { s.strm.nest with j := 0 } }).post 1
        (s.landNest p { s.strm.nest with j := 0 } 0 false)).transferTo (s.strm.readB n))) ∧
    (∀ h o s b x p n, Runs (.lnnext h o) s → s.core = .tile b x 0 → o.d = .p p → o.a = .b n →
      s.strm.nest.j.toNat + 1 < s.strm.nest.slots (s.bay b).pt → s.inDelaySlot = false →
      s.badTarget (s.strm.readB n) true true = false →
      exec (.lnnext h o) s = .next (((s.setStrm { s.strm with nest := { s.strm.nest with
          j := BitVec.ofNat 64 (s.strm.nest.j.toNat + 1) } }).post 1
        (s.landNest p s.strm.nest (s.strm.nest.j.toNat + 1) true)).transferTo (s.strm.readB n))) ∧
    (∀ h o s b x p n, Runs (.lnnext h o) s → s.core = .tile b x 0 → o.d = .p p → o.a = .b n →
      s.strm.nest.slots (s.bay b).pt ≤ s.strm.nest.j.toNat + 1 →
      exec (.lnnext h o) s = .next ((s.setStrm { s.strm with nest := {} }).post 1
        (s.landNest p s.strm.nest (s.strm.nest.j.toNat + 1) false)))) ∧
  ((∀ (s : State) (lcnt n sc : Nat) (rot : Word), s.landLoop lcnt n sc rot
      = [.cr s.strmNo 0x02 (BitVec.ofNat 64 lcnt), .cr s.strmNo 0x03 (BitVec.ofNat 64 (n + sc * 2 ^ 32)), .cr s.strmNo 0x04 rot]) ∧
    (∀ s : State, s.landStage [] = []) ∧
    (∀ (s : State) b x k n v ps, s.core = .tile b x k → s.landStage ((n, v) :: ps) = .p k n v ::
      (if 2 ≤ k ∧ k ≤ 5 then [.q k n (BitVec.allOnes 512) (if v then BitVec.allOnes 512 else 0)] else []) ++ s.landStage ps) ∧
    (∀ (s : State) n v ps, s.onSteward = true → s.landStage ((n, v) :: ps) = .p 0 n v :: s.landStage ps) ∧
    (∀ (s : State) b x (p : BitVec 4) (e : Nest) (j : Nat) (live : Bool), s.core = .tile b x 0 → 1 ≤ e.n.toNat → e.n.toNat ≤ 4 →
      e.t.length = 4 → (∀ q, q < e.n.toNat → ∃ k, k < e.n.toNat ∧ permAt e.perm k = q) →
      let y := s.bay b
      let n := e.n.toNat
      let i := y.lidxOf x
      let pt := 128 / max 1 y.nstage.toNat
      let trips (l : Nat) : Nat := (e.t.getD l 0).toNat
      let total := ((List.range n).map trips).foldl (· * ·) 1
      let first := i * total / pt
      let len := (i + 1) * total / pt - first
      let valid := live && decide (j < len)
      let inner (k : Nat) : Nat := ((List.range (n - 1 - k)).map (fun d => trips (permAt e.perm (k + 1 + d)))).foldl (· * ·) 1
      ∃ idx : List Land, s.landNest p e j live = s.landP p valid ++ idx ∧
        ∀ l, l ∈ idx ↔ ∃ k, k < n ∧ let q := permAt e.perm k
          l ∈ s.landA (e.ab.setWidth 5 + BitVec.ofNat 5 q) (BitVec.ofNat 64 (if valid then (first + j) / inner k % trips q else 0))))

/-- BR is taken when active, and it transfers to bt.off in the current function; its guard is its condition
(05_control_registers R138): with its guard true and a good target, no other transfer pending, control goes to that
offset of the function being executed; with its guard false nothing happens. The transfer of a stream makes its target
word count from tc + 5, and until then the words that follow issue (R133). -/
def Obligations.BrIsConditional : Prop :=
  (∀ h o s n b x k, Runs (.br h o) s → s.core = .tile b x k → o.d = .b n → s.inDelaySlot = false →
    s.badTarget (s.strm.readB n) true true = false →
    let go : Xfer := { fn := BitVec.ofNat 24 s.strm.cur.1, off := ((s.strm.readB n).extractLsb' 0 32).toNat, tc := s.tc }
    exec (.br h o) s = .next (s.setStrm { s.strm with xfer := some go })) ∧
  (∀ h o s, Placed (.br h o) s → guardP h s.strm = false → exec (.br h o) s = .next s) ∧
  (∀ (u : Strm) (x : Xfer) fn off base, u.next = .word fn off base → u.xfer = some x →
    (∀ c, x.tc + 5 ≤ c → (u.turnTo c).next = .word x.fn x.off (x.tc + 5)) ∧
    (∀ c, c < x.tc + 5 → (u.turnTo c).next = u.next))

/-- ERET of a steward core (15_traps R381): the write of estat it posts is due in issue + 5, the tc in which its target
word may first issue, and that write gives ie the value pie had at the issue (00_scope R9) and act 0, and leaves pie and everything else;
control goes to epc, five tc after the issue. Its other form, on a tile, raises 0x008 (05_control_registers R150). The fields of the steward trap
registers (15_traps Table 3): ecause, epc, estat and escr keep the bits the table gives, their reserved bits read zero,
and each resets to zero. -/
def Obligations.EretReturns : Prop :=
  ((∀ h o s k, Runs (.eret h o) s → s.core = .steward k → k < 9 → s.inDelaySlot = false →
      s.badTarget (s.steward k).epc false false = false → ∃ (t : State) (r : Pend),
        exec (.eret h o) s = .next t ∧ (t.steward k).pend = (s.steward k).pend ++ [r] ∧ r.due = (s.steward k).tc + 5 ∧
        r.what = [.eret ((s.steward k).estat.getLsbD 1)] ∧
        (t.steward k).strm.xfer = some ({ fn := 0, off := (s.steward k).epc.toNat, tc := (s.steward k).tc } : Xfer) ∧
        (t.steward k).ram = (s.steward k).ram ∧ (t.steward k).strm.a = (s.steward k).strm.a) ∧
    (∀ (s : State) (k : Nat) (pie : Bool), k < 9 → ∃ v : BitVec 3,
      s.landOwn k (.eret pie) = s.setSteward k { s.steward k with estat := v } ∧
        v.getLsbD 0 = pie ∧ v.getLsbD 1 = (s.steward k).estat.getLsbD 1 ∧ v.getLsbD 2 = false) ∧
    (∀ (u : Strm) (x : Xfer) fn off base, u.next = .word fn off base → u.xfer = some x →
      (∀ c, x.tc + 5 ≤ c → (u.turnTo c).next = .word x.fn x.off (x.tc + 5)) ∧
      (∀ c, c < x.tc + 5 → (u.turnTo c).next = u.next)) ∧
    (∀ h o s, Runs (.eret h o) s → s.onSteward = false → s.inDelaySlot = false → exec (.eret h o) s = .next (s.raise 0x008))) ∧
  ((∀ (w : Steward) (v : Sys2Proof.Word) (i : Nat), i < 64 →
      ((w.setCr 0x41 v).cr 0x41).getLsbD i = ((decide (i < 9) || decide (i = 16) || decide (i = 17)) && v.getLsbD i) ∧
      ((w.setCr 0x42 v).cr 0x42).getLsbD i = (decide (4 ≤ i ∧ i < 48) && v.getLsbD i) ∧
      ((w.setCr 0x43 v).cr 0x43).getLsbD i = (decide (i < 3) && v.getLsbD i) ∧
      ((w.setCr 0x44 v).cr 0x44).getLsbD i = v.getLsbD i) ∧
    (∀ k n, k < 9 → 0x41 ≤ n → n ≤ 0x44 → (State.reset.steward k).cr n = 0))

/-! ## Moves, control registers, integer arithmetic, predicates, synchronization -/

/-- MOV copies an a-, b- or p-register at issue + 1: a predicate as 0 or 1, and any word but 0 as true
(05_control_registers R148). MOVI writes the constant sign-extended, with .u zero-extended, with .hi over the low half
of the destination. SRD copies the control register (its value per number: R149, Table 8; a selected counter by evsel, pmsel and
bcsel); SWR of a rank lands in a register of access rw and writes nothing
in any other. In the unprivileged view the privileged registers raise 0x009 and ERET 0x008; a number that no register
has raises 0x00A (05_control_registers R149, R150; 15_traps R384, R385), a stage count above 8 in lbnd 0x004 (R131). ERET of a steward
core: estat.ie takes
the value estat.pie had at issue and estat.act becomes 0 (landing with the target), and control goes to epc (R150; 15_traps R381).
SRD and SWR there reach the core's own registers at 0x40 to 0x45, and below that the registers of the bay, tile and stream that
starg selects, with its counter index, also those that only the privileged view writes (R162, Table 19); of starg a stream above 8, of
carve a bad value raise 0x004. -/
def Obligations.MoveAndControlWords : Prop :=
  ((∀ h o s d n, Runs (.mov h o) s → o.d = .a d → o.a = .a n → exec (.mov h o) s = .next (s.writeA 1 d (s.strm.readA n))) ∧
    (∀ h o s d n, Runs (.mov h o) s → o.d = .a d → o.a = .b n → exec (.mov h o) s = .next (s.writeA 1 d (s.strm.readB n))) ∧
    (∀ h o s d n, Runs (.mov h o) s → o.d = .a d → o.a = .p n →
      exec (.mov h o) s = .next (s.writeA 1 d (if s.strm.readP n then 1 else 0))) ∧
    (∀ h o s d n, Runs (.mov h o) s → o.d = .b d → o.a = .a n →
      exec (.mov h o) s = .next (s.post 1 [.b s.strmNo d.toNat (s.strm.readA n)])) ∧
    (∀ h o s d n, Runs (.mov h o) s → o.d = .b d → o.a = .b n →
      exec (.mov h o) s = .next (s.post 1 [.b s.strmNo d.toNat (s.strm.readB n)])) ∧
    (∀ h o s d n, Runs (.mov h o) s → o.d = .p d → o.a = .a n →
      exec (.mov h o) s = .next (s.post 1 (s.landP d (decide (s.strm.readA n ≠ 0))))) ∧
    (∀ h o s d n, Runs (.mov h o) s → o.d = .p d → o.a = .p n →
      exec (.mov h o) s = .next (s.post 1 (s.landP d (s.strm.readP n)))) ∧
    (∀ h o s d v, Runs (.movi h o false false) s → o.d = .a d → o.a = .imm v →
      exec (.movi h o false false) s = .next (s.writeA 1 d (v.signExtend 64))) ∧
    (∀ h o s d w u hi, Runs (.movi h o u hi) s → o.d = .a d → o.a = .lit → o.c = .lit w →
      exec (.movi h o u hi) s = .next (s.writeA 1 d (if hi then w ++ (s.strm.readA d).extractLsb' 0 32
        else if u then w.setWidth 64 else w.signExtend 64))) ∧
    (∀ h o s d v u hi, Runs (.movi h o u hi) s → o.d = .a d → o.a = .imm v →
      let w : BitVec 32 := v.signExtend 32
      exec (.movi h o u hi) s = .next (s.writeA 1 d (if hi then w ++ (s.strm.readA d).extractLsb' 0 32
        else if u then w.setWidth 64 else w.signExtend 64)))) ∧
  ((∀ h o s d n b x k, Runs (.srd h o) s → s.core = .tile b x k → o.d = .a d → o.a = .cr n →
      assignedCr n.toNat false = true → privOnly n.toNat = false →
      exec (.srd h o) s = .next (s.writeA 1 d (s.crRead b x k s.strm.evsel.toNat s.strm.bcsel.toNat n.toNat))) ∧
    (∀ h o s n b x k, Runs (.swr h o) s → s.core = .tile b x k → o.d = .cr n → assignedCr n.toNat false = true →
      privOnly n.toNat = false → (n = 0x03 → ((s.intVal o.a o.c).extractLsb' 32 4).toNat ≤ 8) →
      exec (.swr h o) s = .next (s.post 1 (if rwCr n.toNat then [.cr k n (s.intVal o.a o.c)] else []))) ∧
    (∀ h o s n, Runs (.srd h o) s → s.onSteward = false → o.a = .cr n → assignedCr n.toNat false = true →
      privOnly n.toNat = true → exec (.srd h o) s = .next (s.raise 0x009)) ∧
    (∀ h o s n, Runs (.swr h o) s → s.onSteward = false → o.d = .cr n → assignedCr n.toNat false = true →
      privOnly n.toNat = true → exec (.swr h o) s = .next (s.raise 0x009)) ∧
    (∀ h o s n, Runs (.srd h o) s → o.a = .cr n → assignedCr n.toNat s.onSteward = false →
      exec (.srd h o) s = .next (s.raise 0x00A)) ∧
    (∀ h o s n, Runs (.swr h o) s → o.d = .cr n → assignedCr n.toNat s.onSteward = false →
      exec (.swr h o) s = .next (s.raise 0x00A)) ∧
    (∀ h o s, Runs (.swr h o) s → o.d = .cr 0x03 → 8 < ((s.intVal o.a o.c).extractLsb' 32 4).toNat →
      exec (.swr h o) s = .next (s.raise 0x004)) ∧
    (∀ h o s, Runs (.eret h o) s → s.onSteward = false → s.inDelaySlot = false → exec (.eret h o) s = .next (s.raise 0x008))) ∧
  ((∀ h o s k, Runs (.eret h o) s → s.core = .steward k → s.inDelaySlot = false →
      s.badTarget (s.steward k).epc false false = false →
      exec (.eret h o) s = .next ((s.post 5 [.eret ((s.steward k).estat.getLsbD 1)]).transfer 0 (s.steward k).epc.toNat)) ∧
    (∀ h o s k d n, Runs (.srd h o) s → s.core = .steward k → o.d = .a d → o.a = .cr n → 0x40 ≤ n.toNat → n.toNat ≤ 0x45 →
      exec (.srd h o) s = .next (s.writeA 1 d ((s.steward k).cr n.toNat))) ∧
    (∀ h o s k n, Runs (.swr h o) s → s.core = .steward k → o.d = .cr n → 0x40 ≤ n.toNat → n.toNat ≤ 0x44 →
      exec (.swr h o) s = .next (s.post 1 [.cr 0 n (s.intVal o.a o.c)])) ∧
    (∀ h o s k, Runs (.swr h o) s → s.core = .steward k → o.d = .cr 0x45 → let v := s.intVal o.a o.c
      exec (.swr h o) s = if (v.extractLsb' 10 4).toNat ≤ 8 then .next (s.post 1 [.cr 0 0x45 v]) else .next (s.raise 0x004)) ∧
    (∀ h o s k n, s.core = .steward k → n.toNat < 0x40 → assignedCr n.toNat true = true →
      let g := (s.steward k).starg
      let b := if k < 8 then k else (g.extractLsb' 0 3).toNat
      let x := 16 * (g.extractLsb' 3 3).toNat + (g.extractLsb' 6 4).toNat
      let j := (g.extractLsb' 10 4).toNat
      let i := (g.extractLsb' 14 4).toNat
      let v := s.intVal o.a o.c
      (∀ d, o.d = .a d → o.a = .cr n → Runs (.srd h o) s →
        exec (.srd h o) s = .next (s.writeA 1 d (s.crRead b x j i i n.toNat))) ∧
      (o.d = .cr n → (n = 0x21 → badCarve v = false) → (n = 0x03 → (v.extractLsb' 32 4).toNat ≤ 8) → Runs (.swr h o) s →
        exec (.swr h o) s = .next (s.post 1 [.cr (10 + g.toNat) n v])) ∧
      (o.d = .cr n → n = 0x21 → badCarve v = true → Runs (.swr h o) s → exec (.swr h o) s = .next (s.raise 0x004)) ∧
      (∀ t : State, t.landOwn k (.cr (10 + g.toNat) n v) = t.writeTarget b x j i n.toNat v))) ∧
  ((∀ (s : State) (b x j i : Nat) (v : Sys2Proof.Word), let y := s.bay b
    let t := s.tile b x
    s.writeTarget b x j i 0x14 v = s.setTile b x { t with evwin := put t.evwin i (v.extractLsb' 0 32) } ∧
    s.writeTarget b x j i 0x15 v = s.setTile b x { t with evthr := put t.evthr i (v.extractLsb' 0 32) } ∧
    s.writeTarget b x j i 0x16 v = s.setBay b { y with evact := v.extractLsb' 0 33 } ∧
    s.writeTarget b x j i 0x20 v = s.setBay b { y with ptbase := v &&& 0x003FFFFFFFFFE000 } ∧
    s.writeTarget b x j i 0x21 v = s.writeCarve b (x / 16) v ∧
    s.writeTarget b x j i 0x22 v = s.setBay b { y with fillthr := v } ∧
    (∀ n : Nat, rwCr n = true → s.writeTarget b x j i n v = s.setTile b x (t.setStrm j ((t.strm j).setCr n v))) ∧
    (∀ n : Nat, rwCr n = false → n ∉ [0x14, 0x15, 0x16, 0x20, 0x21, 0x22] → s.writeTarget b x j i n v = s)) ∧
    ∀ (s : State) (b x k ev bc : Nat), let y := s.bay b
      let t := s.tile b x
      let u := t.strm k
      let r (n : Nat) : Sys2Proof.Word := s.crRead b x k ev bc n
      r 0x00 = BitVec.ofNat 64 y.tclk ∧ r 0x01 = BitVec.ofNat 64 y.wclk ∧ r 0x02 = u.lcnt.setWidth 64 ∧
      r 0x03 = BitVec.ofNat 64 (u.lbndN.toNat + 2 ^ 32 * u.lbndS.toNat) ∧
      r 0x04 = BitVec.ofNat 64 (u.ra.toNat + 2 ^ 8 * u.rp.toNat + 2 ^ 16 * u.rv.toNat) ∧
      r 0x05 = y.rankid.setWidth 64 ∧ r 0x06 = y.nrank.setWidth 64 ∧ r 0x07 = t.lidx.setWidth 64 ∧ r 0x08 = t.stage.setWidth 64 ∧
      r 0x09 = y.nstage.setWidth 64 ∧ r 0x0A = t.clid.setWidth 64 ∧ r 0x0B = t.tid.setWidth 64 ∧
      (∀ j, s.jobs.find? (fun j => j.id == y.job) = some j → r 0x0C = j.milestone) ∧ r 0x0D = s.ftime ∧ r 0x0E = 1 ∧
      r 0x0F = BitVec.ofNat 64 k ∧ r 0x10 = (if u.ftm then 1 else 0) ∧ r 0x11 = (if y.detm then 1 else 0) ∧
      r 0x12 = u.evsel.setWidth 64 ∧ r 0x13 = (nth t.ev ev 0).setWidth 64 ∧ r 0x14 = (nth t.evwin ev 0).setWidth 64 ∧
      r 0x15 = (nth t.evthr ev 0).setWidth 64 ∧ r 0x16 = y.evact.setWidth 64 ∧ r 0x17 = BitVec.ofNat 64 y.frzc ∧
      r 0x18 = u.draw.setWidth 64 ∧ r 0x19 = u.pmsel.setWidth 64 ∧ r 0x1A = nth y.pm u.pmsel.toNat 0 ∧
      r 0x1B = u.bcsel.setWidth 64 ∧ r 0x1C = nth (y.cluster (x / 16)).bc bc 0 ∧ r 0x1D = y.energy ∧ r 0x20 = y.ptbase ∧
      r 0x21 = (y.cluster (x / 16)).carve ∧ r 0x22 = y.fillthr ∧ r 0x23 = BitVec.ofNat 64 (128 * b + x) ∧
      r 0x24 = (y.seed.extractLsb' 0 32).setWidth 64 ∧ r 0x25 = (y.seed.extractLsb' 32 32).setWidth 64)

/-- The 0x04 group (05_control_registers Table 11): the result lands in D at issue + 1. -/
def Obligations.IntegerWords : Prop :=
  ∀ (h : Head) (o : Ops) (s : State),
    let x := s.intVal o.a o.c
    let y := s.intVal o.b o.c
    let out (v : Word) : Host.Outcome State Fault Refusal := .next (s.writeA 1 (aReg o.d) v)
    (Runs (.add h o) s → exec (.add h o) s = out (x + y)) ∧
    (Runs (.sub h o) s → exec (.sub h o) s = out (x - y)) ∧
    (Runs (.and h o) s → exec (.and h o) s = out (x &&& y)) ∧
    (Runs (.or h o) s → exec (.or h o) s = out (x ||| y)) ∧
    (Runs (.xor h o) s → exec (.xor h o) s = out (x ^^^ y)) ∧
    (Runs (.andn h o) s → exec (.andn h o) s = out (x &&& ~~~y)) ∧
    (Runs (.shl h o) s → exec (.shl h o) s = out (BitVec.ofNat 64 (x.toNat * 2 ^ y.toNat))) ∧
    (Runs (.shr h o) s → exec (.shr h o) s = out (BitVec.ofNat 64 (x.toNat / 2 ^ y.toNat))) ∧
    (Runs (.sar h o) s → exec (.sar h o) s = out (BitVec.ofInt 64 (x.toInt / 2 ^ min y.toNat 63))) ∧
    (Runs (.min h o) s → exec (.min h o) s = out (BitVec.ofInt 64 (min x.toInt y.toInt))) ∧
    (Runs (.max h o) s → exec (.max h o) s = out (BitVec.ofInt 64 (max x.toInt y.toInt))) ∧
    (Runs (.minu h o) s → exec (.minu h o) s = out (BitVec.ofNat 64 (min x.toNat y.toNat))) ∧
    (Runs (.maxu h o) s → exec (.maxu h o) s = out (BitVec.ofNat 64 (max x.toNat y.toNat))) ∧
    (∀ p e, o.c = .sel (.p p) e → Runs (.sel h o) s → exec (.sel h o) s = out (if s.strm.readP p then x else y))

/-- The 0x05 group (Table 11): MUL and MULH land at issue + 3, DIV and REM at issue + 20, CLZ, POPC, EXT and INS at
issue + 1. Division truncates toward zero; by zero it gives all ones and the dividend. The bits of EXT and INS are
written one by one. -/
def Obligations.MulDivWords : Prop :=
  ∀ (h : Head) (o : Ops) (s : State),
    let x := s.intVal o.a o.c
    let y := s.intVal o.b o.c
    let out (lat : Nat) (v : Word) : Host.Outcome State Fault Refusal := .next (s.writeA lat (aReg o.d) v)
    (Runs (.mul h o) s → exec (.mul h o) s = out 3 (x * y)) ∧
    (Runs (.mulh h o false) s → exec (.mulh h o false) s = out 3 (BitVec.ofInt 64 (x.toInt * y.toInt / 2 ^ 64))) ∧
    (Runs (.mulh h o true) s → exec (.mulh h o true) s = out 3 (BitVec.ofNat 64 (x.toNat * y.toNat / 2 ^ 64))) ∧
    (∀ u, Runs (.div h o u) s → y = 0 → exec (.div h o u) s = out 20 (BitVec.allOnes 64)) ∧
    (Runs (.div h o false) s → y ≠ 0 → exec (.div h o false) s = out 20 (BitVec.ofInt 64 (x.toInt.tdiv y.toInt))) ∧
    (Runs (.div h o true) s → y ≠ 0 → exec (.div h o true) s = out 20 (BitVec.ofNat 64 (x.toNat / y.toNat))) ∧
    (∀ u, Runs (.rem h o u) s → y = 0 → exec (.rem h o u) s = out 20 x) ∧
    (Runs (.rem h o false) s → y ≠ 0 → exec (.rem h o false) s = out 20 (BitVec.ofInt 64 (x.toInt.tmod y.toInt))) ∧
    (Runs (.rem h o true) s → y ≠ 0 → exec (.rem h o true) s = out 20 (BitVec.ofNat 64 (x.toNat % y.toNat))) ∧
    (Runs (.clz h o) s → ∃ n : Nat, n ≤ 64 ∧ exec (.clz h o) s = out 1 (BitVec.ofNat 64 n) ∧
      x.toNat < 2 ^ (64 - n) ∧ (n < 64 → 2 ^ (63 - n) ≤ x.toNat)) ∧
    (Runs (.popc h o) s →
      exec (.popc h o) s = out 1 (BitVec.ofNat 64 ((List.range 64).countP (fun i => x.getLsbD i)))) ∧
    (∀ sx p l e, o.b = .imm p → o.c = .sel (.imm l) e → Runs (.ext h o sx) s → ∃ v : Word,
      exec (.ext h o sx) s = out 1 v ∧ ∀ i, i < 64 → v.getLsbD i =
        if i < l.toNat then x.getLsbD (p.toNat + i) else (sx && x.getLsbD (p.toNat + l.toNat - 1))) ∧
    (∀ d p l e, o.d = .a d → o.b = .imm p → o.c = .sel (.imm l) e → Runs (.ins h o) s → ∃ v : Word,
      exec (.ins h o) s = out 1 v ∧ ∀ i, i < 64 → v.getLsbD i =
        if p.toNat ≤ i ∧ i < p.toNat + l.toNat then x.getLsbD (i - p.toNat) else (s.strm.readA d).getLsbD i)

/-- CMP writes the pair: its condition and the complement, plain, and-ed or or-ed with the old values (R152); PSET a
function of two predicates and its complement (R153); PBC at issue + 3 a predicate of another stream of the tile,
through that stream's rotation (R154). A write of p0 is discarded. -/
def Obligations.PredicateWords : Prop :=
  (∀ h o s pd pe cond mode, Runs (.cmp h o pe cond mode) s → o.d = .p pd →
    let x := s.intVal o.a o.c
    let y := s.intVal o.b o.c
    let c : Bool := match cond.toNat with
      | 0 => decide (x = y) | 1 => decide (x ≠ y) | 2 => decide (x.toInt < y.toInt) | 3 => decide (x.toInt ≤ y.toInt)
      | 4 => decide (y.toInt < x.toInt) | 5 => decide (y.toInt ≤ x.toInt) | 6 => decide (x.toNat < y.toNat)
      | 7 => decide (x.toNat ≤ y.toNat) | 8 => decide (y.toNat < x.toNat) | 9 => decide (y.toNat ≤ x.toNat)
      | 10 => decide (x &&& y = 0) | _ => decide (x &&& y ≠ 0)
    let mix (old new : Bool) : Bool := match mode.toNat with
      | 0 => new | 1 => old && new | _ => old || new
    exec (.cmp h o pe cond mode) s
      = .next (s.post 1 (s.landP pd (mix (s.strm.readP pd) c) ++ s.landP pe (mix (s.strm.readP pe) (!c))))) ∧
  (∀ h o s pd pe pa pb f e, Runs (.pset h o pe) s → o.d = .p pd → o.a = .p pa → o.b = .p pb → o.c = .sel (.imm f) e →
    let v := f.getLsbD (2 * (s.strm.readP pa).toNat + (s.strm.readP pb).toNat)
    exec (.pset h o pe) s = .next (s.post 1 (s.landP pd v ++ s.landP pe (!v)))) ∧
  (∀ h o s b x k pd ps strm neg, Runs (.pbc h o strm neg) s → s.core = .tile b x k → o.d = .p pd → o.a = .p ps → pd ≠ 0 →
    exec (.pbc h o strm neg) s = .next (s.post 3 [.p strm.toNat (((s.tile b x).strm strm.toNat).physP pd)
      (if neg then !s.strm.readP ps else s.strm.readP ps)])) ∧
  (∀ h o s ps strm neg, Runs (.pbc h o strm neg) s → s.onSteward = false → o.d = .p 0 → o.a = .p ps →
    exec (.pbc h o strm neg) s = .next (s.post 3 []))

/-- SEMW takes its count at issue + 1 and traps 0x057 where the count falls short, 0x056 on an overflowed semaphore;
SEMS adds at issue + 1, or arms an outstanding token, or traps 0x059 where it is armed already; MTXL takes the mutex at
issue + 1; MTXU frees it, or arms the token; 0x058 for a stream that does not hold it, or where its release is armed; else 0x059 for a token
armed already (13_counters R344 to R347). An arm
stands from its issue on (log entry 49). A write within the freeze horizon of SEMW or MTXL to what it reads (05_control_registers
R144), or another active one of the tc on the same semaphore or mutex, of an earlier stream of the tile, raises 0x046, the lowest of
their causes (13_counters R345). -/
def Obligations.SyncWords : Prop :=
  (∀ h o s n, Runs (.semw h o) s → s.onSteward = false → o.d = .imm n →
    s.horizonHit (guardTargets h s ++ selTargets o.a s ++ [.sem n.toInt.toNat]) = false →
    s.waitClash n.toInt.toNat true = false → (s.sem n.toInt.toNat).ovf = false →
    exec (.semw h o) s = (if (s.semCount o).toNat ≤ (s.sem n.toInt.toNat).count.toNat
      then .next (s.post 1 [.semSub n.toInt.toNat (s.semCount o)]) else .next (s.raise 0x057))) ∧
  (∀ h o s n, s.onSteward = false → o.d = .imm n → (s.sem n.toInt.toNat).ovf = true →
    (s.horizonHit (guardTargets h s ++ selTargets o.a s ++ [.sem n.toInt.toNat]) = false →
      s.waitClash n.toInt.toNat true = false → Runs (.semw h o) s → exec (.semw h o) s = .next (s.raise 0x056)) ∧
    (∀ tok kt, Runs (.sems h o tok kt) s → exec (.sems h o tok kt) s = .next (s.raise 0x056))) ∧
  (∀ h o s n tok kt, Runs (.sems h o tok kt) s → s.onSteward = false → o.d = .imm n → (s.sem n.toInt.toNat).ovf = false →
    (tok && s.tokBusy kt.toNat) = false →
    exec (.sems h o tok kt) s = .next (s.post 1 [.semAdd n.toInt.toNat (s.semCount o)])) ∧
  (∀ h o s n kt b x k, Runs (.sems h o true kt) s → s.core = .tile b x k → o.d = .imm n →
    (s.sem n.toInt.toNat).ovf = false → s.tokBusy kt.toNat = true →
    let t := s.tile b x
    let q := nth t.toks kt.toNat {}
    let armed : Token := { q with arm := some (.sem n.toInt.toNat (s.semCount o)) }
    exec (.sems h o true kt) s = (if q.arm.isSome then .next (s.raise 0x059)
      else .next (s.setTile b x { t with toks := put t.toks kt.toNat armed }))) ∧
  (∀ h o s n, Runs (.mtxl h o) s → s.onSteward = false → o.d = .imm n →
    s.horizonHit (guardTargets h s ++ [.mtx n.toInt.toNat]) = false → s.waitClash n.toInt.toNat false = false →
    exec (.mtxl h o) s = if (s.mtx n.toInt.toNat).held then .next (s.raise 0x057)
      else .next (s.post 1 [.mtxTake n.toInt.toNat (BitVec.ofNat 4 s.strmNo)])) ∧
  (∀ h o s n tok kt, Runs (.mtxu h o tok kt) s → s.onSteward = false → o.d = .imm n →
    (tok && s.tokBusy kt.toNat) = false →
    exec (.mtxu h o tok kt) s =
      if (s.mtx n.toInt.toNat).held ∧ (s.mtx n.toInt.toNat).owner = BitVec.ofNat 4 s.strmNo ∧
          (s.mtx n.toInt.toNat).armed = false
      then .next (s.post 1 [.mtxFree n.toInt.toNat]) else .next (s.raise 0x058)) ∧
  (∀ h o s n kt b x k, Runs (.mtxu h o true kt) s → s.core = .tile b x k → o.d = .imm n →
    (s.mtx n.toInt.toNat).held = true → (s.mtx n.toInt.toNat).owner = BitVec.ofNat 4 k →
    (s.mtx n.toInt.toNat).armed = false → s.tokBusy kt.toNat = true →
    let t := s.tile b x
    let q := nth t.toks kt.toNat {}
    let armed : Token := { q with arm := some (.mtx n.toInt.toNat) }
    let held : Mtx := { nth t.mtxs n.toInt.toNat {} with armed := true, tok := kt }
    q.arm = none →
    exec (.mtxu h o true kt) s
      = .next (s.setTile b x { t with toks := put t.toks kt.toNat armed, mtxs := put t.mtxs n.toInt.toNat held })) ∧
  (∀ h o s n kt b x k tok, Runs (.mtxu h o tok kt) s → s.core = .tile b x k → o.d = .imm n →
    let m := s.mtx n.toInt.toNat
    let mine : Prop := m.held = true ∧ m.owner = BitVec.ofNat 4 k ∧ m.armed = false
    (¬mine → exec (.mtxu h o tok kt) s = .next (s.raise 0x058)) ∧
    (mine → tok = true → s.tokBusy kt.toNat = true → (nth (s.tile b x).toks kt.toNat {}).arm ≠ none →
      exec (.mtxu h o tok kt) s = .next (s.raise 0x059))) ∧
  (∀ h o s n, s.onSteward = false → o.d = .imm n →
    (s.horizonHit (guardTargets h s ++ selTargets o.a s ++ [.sem n.toInt.toNat]) = true ∨ s.waitClash n.toInt.toNat true = true →
      Runs (.semw h o) s → exec (.semw h o) s = .next (s.raise 0x046)) ∧
    (s.horizonHit (guardTargets h s ++ [.mtx n.toInt.toNat]) = true ∨ s.waitClash n.toInt.toNat false = true →
      Runs (.mtxl h o) s → exec (.mtxl h o) s = .next (s.raise 0x046))) ∧
  (∀ (s : State) (b x k j : Nat) h o, s.core = .tile b x k → (x, j) ∈ (s.bay b).issued → j ≠ k →
    let cur := ((s.tile b x).strm j).cur
    (∀ n : BitVec 8, o.d = .imm n →
      ((s.fetchAt (.tile b x j) (BitVec.ofNat 24 cur.1) cur.2).map decode = some (.ok (.semw h o)) →
        s.waitClash n.toInt.toNat true = true) ∧
      ((s.fetchAt (.tile b x j) (BitVec.ofNat 24 cur.1) cur.2).map decode = some (.ok (.mtxl h o)) →
        s.waitClash n.toInt.toNat false = true)))

/-! ## Banks, gateway commands, ordering -/

/-- Scalar access to a bank by CT and BK (08_memories R232, R233): within the scratchpad, aligned to its width and with a free
port, LDL lands at issue + 4 and BRDS at issue + 2 the little-endian bytes at the address of an unpoisoned slot,
extended to 64 bits; STL lands its bytes at issue + 1, also in a poisoned slot: that the read which such a store makes first (R229),
with its causes, is made when it lands is the model's reading (log entry 16). With its port free, an address past the scratchpad raises 0x081 and one
that is misaligned within it 0x082; a port in use raises 0x04D (R230). Scalar access of a steward core (05_control_registers R162): local RAM read at issue + 4, any other
place at once; a store is performed at once; an address without a place raises 0x081, a misaligned one 0x082, the lower where both
hold, and a place that refuses the access its cause. -/
def Obligations.ScalarMemoryWords : Prop :=
  (∀ (h : Head) (o : Ops) (g : BitVec 3) (w : BitVec 2) (sx : Bool) (s : State) (b x k d : Nat) (rd : BitVec 5),
      s.core = .tile b x k → o.d = .a rd → d = (s.bankEa o).toNat →
      let n := 2 ^ w.toNat
      let r := (s.tile b x).slot g.toNat (d / 512)
      let rp : PortUse := { tc := s.tc, g := g.toNat, write := false }
      let wp : PortUse := { tc := s.tc + 1, g := g.toNat, write := true }
      let v := r.data.toNat / 2 ^ (8 * (d % 512)) % 2 ^ (8 * n)
      let ext : Word := if sx then (if v < 2 ^ (8 * n - 1) then BitVec.ofNat 64 v else BitVec.ofInt 64 (v - 2 ^ (8 * n)))
        else BitVec.ofNat 64 v
      (d + n ≤ s.spBytes g.toNat → d % n = 0 → (s.tile b x).ports.contains rp = false → r.poison = false → r.bad = false →
        (Runs (.ldl h o g w sx) s → exec (.ldl h o g w sx) s = .next ((s.usePorts [rp]).post 4 (s.landA rd ext))) ∧
        (Runs (.brds h o g w sx) s → exec (.brds h o g w sx) s = .next ((s.usePorts [rp]).post 2 (s.landA rd ext)))) ∧
      (∀ c, (c = 0x081#9 ∧ s.spBytes g.toNat < d + n) ∨ (c = 0x082#9 ∧ d + n ≤ s.spBytes g.toNat ∧ d % n ≠ 0) →
        ((s.tile b x).ports.contains rp = false →
          (Runs (.ldl h o g w sx) s → exec (.ldl h o g w sx) s = .next (s.raise c (BitVec.ofNat 64 d))) ∧
          (Runs (.brds h o g w sx) s → exec (.brds h o g w sx) s = .next (s.raise c (BitVec.ofNat 64 d)))) ∧
        ((s.tile b x).ports.contains wp = false →
          (Runs (.stl h o g w) s → exec (.stl h o g w) s = .next (s.raise c (BitVec.ofNat 64 d))))) ∧
      ((s.tile b x).ports.contains rp = true →
        (Runs (.ldl h o g w sx) s → exec (.ldl h o g w sx) s = .next (s.raise 0x04D)) ∧
        (Runs (.brds h o g w sx) s → exec (.brds h o g w sx) s = .next (s.raise 0x04D))) ∧
      ((s.tile b x).ports.contains wp = true → Runs (.stl h o g w) s → exec (.stl h o g w) s = .next (s.raise 0x04D)) ∧
      (d + n ≤ s.spBytes g.toNat → d % n = 0 → (s.tile b x).ports.contains wp = false → Runs (.stl h o g w) s →
        exec (.stl h o g w) s = .next ((s.usePorts [wp]).post 1 [.slotBytes g.toNat d n (s.strm.readA rd)]))) ∧
  (∀ (h : Head) (o : Ops) (w : BitVec 2) (sx : Bool) (s : State) (k d : Nat) (rd : BitVec 5),
      s.core = .steward k → o.d = .a rd → d = (s.bankEa o).toNat →
      (∀ v, d % 2 ^ w.toNat = 0 → Runs (.ldl h o 0 w sx) s → s.stewardLoad k d (2 ^ w.toNat) = .ok v →
        exec (.ldl h o 0 w sx) s = .next (s.writeA (if d < 0x80000 then 4 else 1) rd (extendTo64 sx (2 ^ w.toNat) v))) ∧
      (∀ t, d % 2 ^ w.toNat = 0 → Runs (.stl h o 0 w) s → s.stewardStore k d (2 ^ w.toNat) (s.strm.readA rd).toNat = .ok t →
        exec (.stl h o 0 w) s = .next t) ∧
      (d % 2 ^ w.toNat ≠ 0 → d < 0x80000 →
        (Runs (.ldl h o 0 w sx) s → exec (.ldl h o 0 w sx) s = .next (s.raise 0x082)) ∧
        (Runs (.stl h o 0 w) s → exec (.stl h o 0 w) s = .next (s.raise 0x082))) ∧
      (d < 0x80000 → s.stewardLoad k d (2 ^ w.toNat) = .ok (readLe (s.steward k).ram d (2 ^ w.toNat)) ∧
        ∀ v, s.stewardStore k d (2 ^ w.toNat) v = .ok (s.setSteward k { s.steward k with
          ram := writeBytes (s.steward k).ram d (leBytes (2 ^ w.toNat) v) })) ∧
      (placeOf k d = none →
        (Runs (.ldl h o 0 w sx) s → exec (.ldl h o 0 w sx) s = .next (s.raise 0x081)) ∧
        (Runs (.stl h o 0 w) s → exec (.stl h o 0 w) s = .next (s.raise 0x081))) ∧
      (let load := s.stewardLoad k d (2 ^ w.toNat); Runs (.ldl h o 0 w sx) s →
        (∀ c, load = .error c → d % 2 ^ w.toNat = 0 ∨ c = 0x081 → exec (.ldl h o 0 w sx) s = .next (s.raise c)) ∧
        (d % 2 ^ w.toNat ≠ 0 → load ≠ .error 0x081 → exec (.ldl h o 0 w sx) s = .next (s.raise 0x082))) ∧
      (let store := s.stewardStore k d (2 ^ w.toNat) (s.strm.readA rd).toNat; Runs (.stl h o 0 w) s →
        (∀ c, store = .error c → exec (.stl h o 0 w) s = .next (s.raise c)) ∧
        (∀ t, d % 2 ^ w.toNat ≠ 0 → store = .ok t → exec (.stl h o 0 w) s = .next (s.raise 0x082))))

/-- Whole slots (08_memories R234 to R236): BRD and BGTH land a slot's contents at issue + 2 in a row or on a lane, with
.chk after its freshness and sequence number are checked (0x04E otherwise); BGTH, in either mode of the queue, adds 512 times the
entry it pops, and raises 0x052 where there is none (10_queues R280); BWR
lands a row's or a lane's contents in the slot at issue + 1; BCHK only checks. BSCT and BATM read the slot, combine it with a row
and land it whole at issue + 2 (08_memories R237, R239): the scatter takes element i of the source to element index[i],
the higher i prevailing; BATM applies its operation element by element, for ACC96 at the slot's anchor or, in an empty slot, the
source's. BFILL lands one slot a tc from issue + 1 on,
each element the value's low bits (R238). -/
def Obligations.SlotWords : Prop :=
  (∀ (h : Head) (o : Ops) (g : BitVec 3) (s : State) (b x k d : Nat),
      s.core = .tile b x k → d + 512 ≤ s.spBytes g.toNat → d % 512 = 0 →
      let r := (s.tile b x).slot g.toNat (d / 512)
      let rp : PortUse := { tc := s.tc, g := g.toNat, write := false }
      let wp : PortUse := { tc := s.tc + 1, g := g.toNat, write := true }
      let out := resultRow r.row
      let dst : List Land := match o.d with
        | .v n => [.rowRaw (s.strm.physV n) out]
        | .lane aw n => [.lane aw n (2 * g.toNat) out]
        | _ => []
      ((s.tile b x).ports.contains rp = false → r.poison = false → r.bad = false →
        (d = (s.bankEa o).toNat → Runs (.brd h o g false) s →
          exec (.brd h o g false) s = .next ((s.usePorts [rp]).post 2 dst)) ∧
        (d = (s.bankEa o).toNat → r.fresh = true → r.seq = (s.intVal (cSel o.c) o.c).extractLsb' 0 16 →
          Runs (.brd h o g true) s →
          exec (.brd h o g true) s = .next (((s.usePorts [rp]).post 1 [.unfresh g.toNat (d / 512)]).post 2 dst)) ∧
        (d = (s.bankEa o).toNat → r.fresh = false ∨ r.seq ≠ (s.intVal (cSel o.c) o.c).extractLsb' 0 16 →
          Runs (.brd h o g true) s → exec (.brd h o g true) s = .next (s.raise 0x04E)) ∧
        (∀ e es, (s.tile b x).oq.entries = e :: es → e.getLsbD 32 = false → popsFreely s b x (guardTargets h s) →
          d = (s.bankEa o).toNat + 512 * (e.extractLsb' 0 32).toNat →
          let u := (s.setTile b x ((s.tile b x).pop 1)).usePorts [rp]
          (Runs (.bgth h o g false) s → exec (.bgth h o g false) s = .next (u.post 2 dst)) ∧
          (r.fresh = true → r.seq = (s.intVal (cSel o.c) o.c).extractLsb' 0 16 → Runs (.bgth h o g true) s →
            exec (.bgth h o g true) s = .next ((u.post 1 [.unfresh g.toNat (d / 512)]).post 2 dst)) ∧
          (r.fresh = false ∨ r.seq ≠ (s.intVal (cSel o.c) o.c).extractLsb' 0 16 → Runs (.bgth h o g true) s →
            exec (.bgth h o g true) s = .next (s.raise 0x04E))) ∧
        (d = (s.bankEa o).toNat → Runs (.bchk h o g) s →
          exec (.bchk h o g) s = if r.fresh = true ∧ r.seq = (s.intVal o.d o.c).extractLsb' 0 16
            then .next ((s.usePorts [rp]).post 1 [.unfresh g.toNat (d / 512)]) else .next (s.raise 0x04E))) ∧
      (∀ chk, (s.tile b x).oq.entries = [] → popsFreely s b x (guardTargets h s) → Runs (.bgth h o g chk) s →
        exec (.bgth h o g chk) s = .next (s.raise 0x052)) ∧
      (∀ aw n v, o.d = .lane aw n → d = (s.bankEa o).toNat → (s.tile b x).ports.contains wp = false →
        (s.tile b x).tap aw n (2 * g.toNat) s.tc = some v → v.md.poison = false → Runs (.bwr h o g) s →
        let v := resultRow v
        exec (.bwr h o g) s = .next ((s.usePorts [wp]).post 1
          [.slot g.toNat (d / 512) false v.data v.md.scales v.md.tag v.md.anchor])) ∧
      (∀ n, o.d = .v n → d = (s.bankEa o).toNat → (s.tile b x).ports.contains wp = false →
        (nth (s.tile b x).rows (s.strm.physV n) {}).md.poison = false → Runs (.bwr h o g) s →
        let v := resultRow (nth (s.tile b x).rows (s.strm.physV n) {})
        exec (.bwr h o g) s = .next ((s.usePorts [wp]).post 1
          [.slot g.toNat (d / 512) false v.data v.md.scales v.md.tag v.md.anchor]))) ∧
  ((∀ (h : Head) (o : Ops) (g : BitVec 3) (ty : BitVec 5) (s : State) (b x k d : Nat) (old src idx : Opnd),
      s.core = .tile b x k → d = (s.bankEa o).toNat → d + 512 ≤ s.spBytes g.toNat → d % 512 = 0 →
      (∀ u ∈ s.rmwPorts g.toNat, (s.tile b x).ports.contains u = false) →
      s.slotAs g.toNat d ty = .ok old → s.bkOpnd o.d g.toNat ty = .ok src → s.bkOpnd (cSel o.c) g.toNat 6 = .ok idx →
      Runs (.bsct h o g ty) s →
      ∃ el evs, exec (.bsct h o g ty) s = .next ((s.usePorts (s.rmwPorts g.toNat)).post 2
          [.slot g.toNat (d / 512) true (packRow ty el) 0 ty 0] evs) ∧ el.length = old.el.length ∧
        ∀ j, j < lanes ty → j < old.el.length → lanes ty ≤ idx.el.length → lanes ty ≤ src.el.length →
          (∀ i, i < lanes ty → idx.el[i]? = some j → (∀ m, i < m → m < lanes ty → idx.el[m]? ≠ some j) →
            el[j]? = src.el[i]?) ∧
          ((∀ i, i < lanes ty → idx.el[i]? ≠ some j) → el[j]? = old.el[j]?)) ∧
    (∀ (h : Head) (o : Ops) (g : BitVec 3) (ty : BitVec 5) (s : State) (b x k d : Nat) (old src : Opnd),
      s.core = .tile b x k → d = (s.bankEa o).toNat → d + 512 ≤ s.spBytes g.toNat → d % 512 = 0 →
      (∀ u ∈ s.rmwPorts g.toNat, (s.tile b x).ports.contains u = false) →
      s.slotAs g.toNat d ty = .ok old → s.bkOpnd o.d g.toNat ty = .ok src → Runs (.batm h o g ty) s →
      let slot := (s.tile b x).slot g.toNat (d / 512)
      ∃ evs anchor, exec (.batm h o g ty) s = .next ((s.usePorts (s.rmwPorts g.toNat)).post 2 [.slot g.toNat (d / 512) true
        (packRow ty ((old.el.zip src.el).map (fun p =>
          (batmElem ((extra o.c).extractLsb' 0 4).toNat ty anchor.toInt src.anchor.toInt p.1 p.2).1))) 0 ty anchor] evs) ∧
        (ty ≠ 23 → anchor = 0) ∧ (ty = 23 → slot.poison = false → anchor = if slot.tag = 0 then src.anchor else old.anchor)) ∧
    (∀ (h : Head) (o : Ops) (g : BitVec 3) (ty : BitVec 5) (s : State) (b x k d : Nat) (n : BitVec 8),
      s.core = .tile b x k → d = (s.bankEa o).toNat → o.d = .imm n → d + 512 * n.toNat ≤ s.spBytes g.toNat → d % 512 = 0 →
      (∀ j, j < n.toNat → (s.tile b x).ports.contains { tc := s.tc + (1 + j), g := g.toNat, write := true } = false) →
      Runs (.bfill h o g ty) s →
      exec (.bfill h o g ty) s = .next ((s.usePorts ((List.range n.toNat).map (fun j => s.writePort g.toNat (1 + j)))).fillSlots
        g.toNat (d / 512) (packRow ty (List.replicate (lanes ty) (s.intVal (cSel o.c) o.c).toNat)) ty n.toNat 0)) ∧
    (∀ (s : State) (g n0 : Nat) (data : RowData) (ty : BitVec 5) (n j : Nat), s.fillSlots g n0 data ty 0 j = s ∧
      s.fillSlots g n0 data ty (n + 1) j
        = (s.post (1 + j) [.slot g (n0 + j) false data 0 ty 0]).fillSlots g n0 data ty n (j + 1)))

/-- The issue of a gateway command (08_memories R244, R246, R247): with its token free, it becomes outstanding with the
tokens it consumes that are outstanding; its own token is outstanding from issue + 1. GLD names its images one after
another; GGTH and GSCT those at popped or row offsets times the stride, to or from slots or one row; the events of an index row
count when the token completes (13_counters R350). GCPY, GPF, GINV, GWB, GATM and GLEV become outstanding commands
(08_memories R247, R249; 11_tables R309). A token in use raises 0x04F for every command word whose operands raise no lower
cause; a byte count above 2^32 − 1 raises 0x004; an FP32 atomic sum of a deterministic rank 0x084. The
bound of an atomic's count is the model's reading (log entry 37), that sums of addresses wrap at 2^64 its choice (log entry 99). -/
def Obligations.GatewayWords : Prop :=
  (∀ (h : Head) (o : Ops) (kd : BitVec 6) (g : BitVec 3) (s : State) (b x k : Nat), s.core = .tile b x k →
      let t := s.tile b x
      let cmd (w : CmdKind) (evs : List Nat) : Cmd := {
        k := kd.toNat, addr := s.addr, tclk := s.tc, evs := tally evs, what := w
        waits := (consumed o.c).filter (fun j => j != kd.toNat && s.tokBusy j) }
      let start (w : CmdKind) (evs : List Nat) : State :=
        (s.setTile b x { t with cmds := t.cmds ++ [cmd w evs] }).post 1 [.tokOut kd.toNat]
      let ga := s.regOf o.a
      let spaced (f : BitVec 5) (n : Nat) : List Word := (List.range n).map (fun j => ga + BitVec.ofNat 64 (j * imageSize f))
      s.tokBusy kd.toNat = false → ga.toNat % 32 = 0 →
      (∀ m f, o.d = .v m → o.b = .imm 1 → f = (s.regOf (cSel o.c)).extractLsb' 16 5 → isTag f = true → Runs (.gld h o kd g) s →
        exec (.gld h o kd g) s = .next (start (.fill (.row (s.strm.physV m) {}) (spaced f 1)
          ((s.regOf (cSel o.c)).extractLsb' 0 16) f) [])) ∧
      (∀ m f n, o.d = .a m → n = s.cntVal o.b o.c → n ≤ 64 → (s.strm.readA m).toNat % 512 = 0 →
        (s.strm.readA m).toNat + 512 * n ≤ s.spBytes g.toNat → f = (s.regOf (cSel o.c)).extractLsb' 16 5 → isTag f = true →
        Runs (.gld h o kd g) s →
        exec (.gld h o kd g) s = .next (start (.fill (.slots g.toNat ((s.strm.readA m).toNat / 512)) (spaced f n)
          ((s.regOf (cSel o.c)).extractLsb' 0 16) f) [])) ∧
      (∀ m r f e, o.d = .v m → o.b = .imm 1 → o.c = .sel (.imm f) e → HoldsRow s m r → Runs (.gst h o kd g) s →
        exec (.gst h o kd g) s
          = .next (start (.store (.row (s.strm.physV m) r) (spaced (f.setWidth 5) 1) (f.setWidth 5)) [])) ∧
      (∀ m f n e, o.d = .a m → n = s.cntVal o.b o.c → n ≤ 64 → (s.strm.readA m).toNat % 512 = 0 →
        (s.strm.readA m).toNat + 512 * n ≤ s.spBytes g.toNat → o.c = .sel (.imm f) e → Runs (.gst h o kd g) s →
        exec (.gst h o kd g) s = .next (start (.store (.slots g.toNat ((s.strm.readA m).toNat / 512)) (spaced (f.setWidth 5) n)
          (f.setWidth 5)) [])) ∧
      (∀ m n f st, o.d = .a m → n = ((s.regOf o.b).extractLsb' 0 7).toNat → f = (s.regOf o.b).extractLsb' 16 5 →
        st = (s.regOf o.b).toNat / 2 ^ 32 → n ≤ 64 → isTag f = true → st % 32 = 0 → (s.strm.readA m).toNat % 512 = 0 →
        (s.strm.readA m).toNat + 512 * n ≤ s.spBytes g.toNat →
        (n ≤ t.oq.entries.length → (∀ e ∈ t.oq.entries.take n, e.getLsbD 32 = false) →
          popsFreely s b x (guardTargets h s ++ selTargets o.b s) → Runs (.ggth h o kd g) s →
          exec (.ggth h o kd g) s = .next (((s.setTile b x { t.pop n with cmds := t.cmds ++ [cmd (.fill
            (.slots g.toNat ((s.strm.readA m).toNat / 512))
            ((t.oq.entries.take n).map (fun e => ga + BitVec.ofNat 64 ((e.extractLsb' 0 32).toNat * st)))
            ((s.intVal (cSel o.c) o.c).extractLsb' 0 16) f) []] })).post 1 [.tokOut kd.toNat])) ∧
        (∀ ix, s.opnd (cSel o.c) o.c 7 = .ok ix → Runs (.gsct h o kd g) s →
          exec (.gsct h o kd g) s = .next (start (.store (.slots g.toNat ((s.strm.readA m).toNat / 512))
            ((ix.el.take n).map (fun e => ga + BitVec.ofNat 64 (e * st))) f) ix.allEvents))) ∧
      (∀ m f st, o.d = .v m → (s.regOf o.b).extractLsb' 0 7 = 1#7 → f = (s.regOf o.b).extractLsb' 16 5 →
        st = (s.regOf o.b).toNat / 2 ^ 32 → isTag f = true → st % 32 = 0 →
        (∀ e es, t.oq.entries = e :: es → e.getLsbD 32 = false → popsFreely s b x (guardTargets h s ++ selTargets o.b s) →
          Runs (.ggth h o kd g) s →
          exec (.ggth h o kd g) s = .next (((s.setTile b x { t.pop 1 with cmds := t.cmds ++ [cmd (.fill
            (.row (s.strm.physV m) {}) [ga + BitVec.ofNat 64 ((e.extractLsb' 0 32).toNat * st)]
            ((s.intVal (cSel o.c) o.c).extractLsb' 0 16) f) []] })).post 1 [.tokOut kd.toNat])) ∧
        (∀ r ix i is, HoldsRow s m r → s.opnd (cSel o.c) o.c 7 = .ok ix → ix.el = i :: is → Runs (.gsct h o kd g) s →
          exec (.gsct h o kd g) s = .next (start (.store (.row (s.strm.physV m) r)
            [ga + BitVec.ofNat 64 (i * st)] f) ix.allEvents)))) ∧
  (∀ (h : Head) (o : Ops) (kd : BitVec 6) (s : State) (b x k : Nat), s.core = .tile b x k →
      let start (w : CmdKind) : State := s.launchCmd kd o.c w
      (s.tokBusy kd.toNat = false →
        (s.cntVal o.b o.c < 2 ^ 32 → Runs (.gcpy h o kd) s →
          exec (.gcpy h o kd) s = .next (start (.copy (s.regOf o.d) (s.regOf o.a) (s.cntVal o.b o.c)))) ∧
        (2 ^ 32 ≤ s.cntVal o.b o.c → Runs (.gcpy h o kd) s → exec (.gcpy h o kd) s = .next (s.raise 0x004)) ∧
        (s.cntVal o.a o.c < 2 ^ 32 →
          (∀ lv, o.b = .imm lv → Runs (.gpf h o kd) s →
            exec (.gpf h o kd) s = .next (start (.prefetch (s.regOf o.d) (s.cntVal o.a o.c) lv.toNat))) ∧
          (Runs (.ginv h o kd) s → exec (.ginv h o kd) s = .next (start (.invalidate (s.regOf o.d) (s.cntVal o.a o.c)))) ∧
          (Runs (.gwb h o kd) s → exec (.gwb h o kd) s = .next (start (.writeBack (s.regOf o.d) (s.cntVal o.a o.c))))) ∧
        (∀ g ret m f e n, o.d = .a m → (s.strm.readA m).toNat % 512 = 0 → (s.strm.readA m).toNat + 512 ≤ s.spBytes g.toNat →
          o.c = .sel (.imm f) e → n = s.cntVal o.b o.c → 1 ≤ n → n ≤ atomMax o →
          (s.regOf o.a).toNat % (atomFormat (f.extractLsb' 4 4).toNat).2 = 0 →
          Runs (.gatm h o kd g ret) s →
          exec (.gatm h o kd g ret) s = if f.extractLsb' 0 4 = 1 ∧ (s.bay b).detm = true then .next (s.raise 0x084 (s.regOf o.a))
            else .next (start (.atomic (.slots g.toNat ((s.strm.readA m).toNat / 512)) (s.regOf o.a) n
              (f.extractLsb' 0 4) (f.extractLsb' 4 4) ret))) ∧
        (∀ g ret m r f e n, o.d = .v m → HoldsRow s m r → o.c = .sel (.imm f) e → n = s.cntVal o.b o.c → 1 ≤ n → n ≤ atomMax o →
          (s.regOf o.a).toNat % (atomFormat (f.extractLsb' 4 4).toNat).2 = 0 →
          Runs (.gatm h o kd g ret) s →
          exec (.gatm h o kd g ret) s = if f.extractLsb' 0 4 = 1 ∧ (s.bay b).detm = true then .next (s.raise 0x084 (s.regOf o.a))
            else .next (start (.atomic (.row (s.strm.physV m) r) (s.regOf o.a) n (f.extractLsb' 0 4) (f.extractLsb' 4 4) ret))) ∧
        ((s.regOf o.d).toNat % 32 = 0 → (s.regOf o.a).toNat % 32 = 0 → Runs (.glev h o kd) s →
          exec (.glev h o kd) s = .next ((start (.grid (s.regOf o.d) (s.regOf o.a) s.strm.draw)).advanceDraw true))) ∧
      (2 ^ 32 ≤ s.cntVal o.a o.c →
        (∀ lv, o.b = .imm lv → Runs (.gpf h o kd) s → exec (.gpf h o kd) s = .next (s.raise 0x004)) ∧
        (Runs (.ginv h o kd) s → exec (.ginv h o kd) s = .next (s.raise 0x004)) ∧
        (Runs (.gwb h o kd) s → exec (.gwb h o kd) s = .next (s.raise 0x004))) ∧
      (s.tokBusy kd.toNat = true →
        let busy (i : Instr) : Prop := Runs i s → exec i s = .next (s.raise 0x04F)
        let count (n : Nat) : Prop := n ≤ 64 ∧ ∀ m, o.d = .v m → n = 1
        let sz := s.regOf o.b
        (∀ g, count (s.cntVal o.b o.c) → isTag ((s.regOf (cSel o.c)).extractLsb' 16 5) = true → busy (.gld h o kd g)) ∧
        (∀ g, count (s.cntVal o.b o.c) → busy (.gst h o kd g)) ∧
        (∀ g, count (sz.extractLsb' 0 7).toNat → isTag (sz.extractLsb' 16 5) = true →
          (popsFreely s b x (guardTargets h s ++ selTargets o.b s) → busy (.ggth h o kd g)) ∧
          (∀ ix, s.opnd (cSel o.c) o.c 7 = .ok ix → busy (.gsct h o kd g))) ∧
        (s.cntVal o.b o.c < 2 ^ 32 → busy (.gcpy h o kd)) ∧
        (s.cntVal o.a o.c < 2 ^ 32 → busy (.gpf h o kd) ∧ busy (.ginv h o kd) ∧ busy (.gwb h o kd)) ∧
        (∀ g ret, 1 ≤ s.cntVal o.b o.c → s.cntVal o.b o.c ≤ atomMax o → busy (.gatm h o kd g ret)) ∧
        busy (.glev h o kd) ∧ ∀ sc, busy (.acq h o kd sc) ∧ busy (.rel h o kd sc) ∧ busy (.fence h o kd sc))) ∧
  (∀ (s : State) (b x k : Nat) (kd : BitVec 6) (c : Third) (w : CmdKind) (evs : List Nat), s.core = .tile b x k →
      let cmd : Cmd := { k := kd.toNat, addr := s.addr, tclk := s.tc, evs := tally evs, what := w
                         waits := (consumed c).filter (fun j => j != kd.toNat && s.tokBusy j) }
      s.launchCmd kd c w evs
        = (s.setTile b x { s.tile b x with cmds := (s.tile b x).cmds ++ [cmd] }).post 1 [.tokOut kd.toNat])

/-- ACQ and REL with a bound sync word, and FENCE, become outstanding commands of CT (09_ordering R261 to R265); a sync
word that is not aligned or has no region raises 0x085. On a steward core ACQ and REL raise 0x00F and FENCE only passes
(05_control_registers R162). BIND writes its entry at issue + 1, or raises 0x088 on bad operands (11_tables R300), and
different ones of one tc on one entry each raise it (R301). ST64
submits eight registers to the endpoint at issue + 6, whose return code is that of 12_endpoints R325, and opens the collective
with code 0; on a steward core it receives code 3 (R324). That next wraps to 0 is log entry 84.
WAITA has nothing left to do once its condition held; where the read that ended its wait faulted, which the tile's observation for
its tc tells (the model's, log entry 67), it raises 0x086, and with no observation where its word cannot be read (09_ordering
R270, R271); a write within its freeze horizon to what it reads raises 0x046 (05_control_registers R144). That the record of 0x085
and 0x088 holds the sync address, that of 0x088 also where base, size or entry is at fault, and that of 0x086 the address WAITA
reads, are the model's choices (log entry 52). -/
def Obligations.OrderingAndEndpointWords : Prop :=
  (∀ (h : Head) (o : Ops) (kd : BitVec 6) (sc : BitVec 4) (s : State),
      (∀ b x k, s.core = .tile b x k → s.tokBusy kd.toNat = false →
        let sa := s.regOf o.d
        let regions := ((s.bay b).regions.toList.filter (fun e => e.size != 0 && e.sync == sa)).map (fun e => (e.base, e.size))
        (sa.toNat % 64 = 0 → regions ≠ [] →
          (Runs (.acq h o kd sc) s → exec (.acq h o kd sc) s = .next (s.launchCmd kd o.c (.acq sc sa regions))) ∧
          (Runs (.rel h o kd sc) s →
            exec (.rel h o kd sc) s = .next (s.launchCmd kd o.c (.rel sc sa (s.intVal o.a o.c) regions)))) ∧
        (sa.toNat % 64 ≠ 0 ∨ regions = [] →
          (Runs (.acq h o kd sc) s → exec (.acq h o kd sc) s = .next (s.raise 0x085 sa)) ∧
          (Runs (.rel h o kd sc) s → exec (.rel h o kd sc) s = .next (s.raise 0x085 sa))) ∧
        (Runs (.fence h o kd sc) s → exec (.fence h o kd sc) s = .next (s.launchCmd kd o.c (.fence sc)))) ∧
      (s.onSteward = true →
        (Runs (.acq h o kd sc) s → exec (.acq h o kd sc) s = .next (s.raise 0x00F)) ∧
        (Runs (.rel h o kd sc) s → exec (.rel h o kd sc) s = .next (s.raise 0x00F)) ∧
        (kd = 0 → extra o.c = 0 → Runs (.fence h o kd sc) s → exec (.fence h o kd sc) s = .next s))) ∧
  ((∀ (h : Head) (o : Ops) (s : State), Runs (.bind h o) s → s.onSteward = false →
      let e := (s.intVal o.d o.c).toNat
      let sa := s.regOf o.a
      let ab := s.regOf o.b
      let sz := s.regOf (cSel o.c)
      exec (.bind h o) s =
        if e ≤ 63 ∧ sa.toNat % 64 = 0 ∧ ab.toNat % 128 = 0 ∧ sz.toNat % 128 = 0 ∧ sa.toNat < 2 ^ 52 ∧ ab.toNat < 2 ^ 52 ∧
            ab.toNat + sz.toNat ≤ 2 ^ 52
        then .next (s.post 1 [.bind e sa ab sz]) else .next (s.raise 0x088 sa)) ∧
    (∀ (h : Head) (o : Ops) (s : State) d n, Runs (.st64 h o) s → o.d = .a d → o.a = .a n → s.onSteward = false →
      exec (.st64 h o) s = .next (s.post 6 [.st64 (s.strm.physA d)
        ((List.range 8).map (fun i => s.strm.readA (n + BitVec.ofNat 5 i)))])) ∧
    (∀ (h : Head) (o : Ops) (s : State) d, Runs (.st64 h o) s → o.d = .a d → s.onSteward = true →
      exec (.st64 h o) s = .next (s.writeA 6 d 3)) ∧
    (∀ (h : Head) (o : Ops) (c : BitVec 3) (s : State) b x k, Runs (.waita h o c) s → s.core = .tile b x k →
      s.horizonHit (guardTargets h s ++ selTargets o.d s ++ selTargets o.a s ++ selTargets o.b s) = false →
      let now := (s.watchWord b (s.regOf o.d)).isNone
      let faulted : Bool := match (s.tile b x).watch with
        | some (u, _, f) => if u = s.tc then f else now
        | none => now
      exec (.waita h o c) s = if faulted then .next (s.raise 0x086 (s.regOf o.d)) else .next s) ∧
    (∀ (h : Head) (o : Ops) (c : BitVec 3) (s : State), Runs (.waita h o c) s → s.onSteward = false →
      s.horizonHit (guardTargets h s ++ selTargets o.d s ++ selTargets o.a s ++ selTargets o.b s) = true →
      exec (.waita h o c) s = .next (s.raise 0x046))) ∧
  (∀ (s : State) (b : BitVec 3), let y := s.bay b.toNat
    y.timed = true →
    (∀ x r e v, y.bindsDue y.tclk = [(x, r, e, v)] →
      ∃ u, exec (.writeLanding b) s = .next u ∧ (u.bay b.toNat).regions = put y.regions e v) ∧
    (∀ x r x' r' e v v', y.bindsDue y.tclk = [(x, r, e, v), (x', r', e, v')] → ∃ u, exec (.writeLanding b) s = .next u ∧
      (v = v' → (u.bay b.toNat).regions = put y.regions e v) ∧
      (v ≠ v' → (u.bay b.toNat).regions = y.regions ∧ r.trap x 0x088 v.sync ∈ (u.bay b.toNat).traps ∧
        r'.trap x' 0x088 v'.sync ∈ (u.bay b.toNat).traps)) ∧
    (∀ x r rd rec, x < 128 → rd < 32 → y.st64sDue y.tclk = [(x, r, rd, rec)] →
      ∃ u, exec (.writeLanding b) s = .next u ∧
      let code := s.st64Code y rec
      let e := (u.bay b.toNat).ep
      let id := ((rec.headD 0).extractLsb' 16 16).toNat % 1024
      (rd ≠ 0 → nth ((u.tile b.toNat x).strm 0).a rd 0 = BitVec.ofNat 64 code) ∧ (code ≠ 0 → e = y.ep) ∧
      (code = 0 → e.opened = y.ep.opened + 1 ∧ e.next = (id + 1) % 1024 ∧ ∃ c ∈ e.colls, c.id.toNat = id ∧ c.record = rec ∧
        c.landed = y.tclk ∧ c.opened = true ∧ c.delivered = false ∧ c.present = []))) ∧
  (∀ (s : State) (y : Bay) (rec : List Word),
    let code := s.st64Code y rec
    let w (i : Nat) : Word := rec.getD i 0
    let d := s.descriptor y ((w 0).extractLsb' 0 12).toNat
    let formed : Prop := d.bad = false ∧ (w 0).extractLsb' 12 4 = 0 ∧ (w 0).extractLsb' 32 32 = 0 ∧ w 5 = 0 ∧ w 6 = 0 ∧ w 7 = 0
    let fits : Prop := (d.position y.rankid.toNat).isSome ∧ ((w 0).extractLsb' 16 16).toNat = y.ep.next ∧ w 2 ≠ 0 ∧
      (w 2).toNat ≤ d.maxBytes ∧ (w 2).toNat % 32 = 0 ∧ (w 2).toNat % d.elemBytes = 0 ∧
      (d.placement = 2 → (w 2).toNat % (32 * d.n) = 0) ∧ (w 3).toNat % 32 = 0 ∧ (w 4).toNat % 32 = 0
    (w 1 ≠ y.curStep → code = 4) ∧ (w 1 = y.curStep → ¬formed → code = 2) ∧ (w 1 = y.curStep → formed → ¬fits → code = 3) ∧
    (w 1 = y.curStep → formed → fits → code = if y.ep.opened = 64 then 1 else 0))

/-! ## Numbers and vector words -/

/-- Sums and products of finite values are exact before their one rounding (04_numbers R114, R116; 06_vector_rows R178):
in any unit that divides the operands, the sum, the product and the product plus a third value are those of the
integers. Rounding m/2^sh to a whole number (04_numbers R114, Table 3): rne gives a nearest, the even of two; rtz the
one not larger in magnitude; rdn the one below and rup the one above; sr one of the two neighbours. Exact values stay.
-/
def Obligations.ExactArithmetic : Prop :=
  (∀ (rm : Nat) (n1 n2 n3 : Bool) (m1 m2 m3 : Nat) (e1 e2 e3 u : Int),
      (u ≤ e1 → u ≤ e2 → ∃ n m e, addV rm (.fin n1 m1 e1 false) (.fin n2 m2 e2 false) = (.fin n m e false, []) ∧
        (m = 0 ∨ u ≤ e) ∧ unitsOf u n m e = unitsOf u n1 m1 e1 + unitsOf u n2 m2 e2) ∧
      (u ≤ e1 + e2 → u ≤ e3 → ∃ n m e,
        fmaV rm (.fin n1 m1 e1 false) (.fin n2 m2 e2 false) (.fin n3 m3 e3 false) = (.fin n m e false, []) ∧
        (m = 0 ∨ u ≤ e) ∧ unitsOf u n m e = unitsOf u (n1 ^^ n2) (m1 * m2) (e1 + e2) + unitsOf u n3 m3 e3) ∧
      mulV (.fin n1 m1 e1 false) (.fin n2 m2 e2 false) = (.fin (n1 ^^ n2) (m1 * m2) (e1 + e2) false, [])) ∧
  (∀ (rm sh m w : Nat) (neg : Bool), rm ≤ 4 → 1 ≤ sh → w < 2 ^ 32 →
      let n := (roundAt rm neg m 0 false sh w).1
      (m % 2 ^ sh = 0 → n = m / 2 ^ sh) ∧
      (n = m / 2 ^ sh ∨ n = m / 2 ^ sh + 1) ∧
      (rm = 0 → 2 * (m - n * 2 ^ sh) ≤ 2 ^ sh ∧ 2 * (n * 2 ^ sh - m) ≤ 2 ^ sh ∧
        (2 * (m % 2 ^ sh) = 2 ^ sh → n % 2 = 0)) ∧
      (rm = 1 → n * 2 ^ sh ≤ m) ∧
      (rm = 2 → if neg then m ≤ n * 2 ^ sh else n * 2 ^ sh ≤ m) ∧
      (rm = 3 → if neg then n * 2 ^ sh ≤ m else m ≤ n * 2 ^ sh))

/-- A pattern of a floating format that is not a NaN decodes to a value that rounds back to it, exactly, in every
rounding mode (04_numbers R101, R116). -/
def Obligations.RoundOfDecode : Prop :=
  ∀ (f : BitVec 5) (rm w x : Nat), 8 ≤ f.toNat → f.toNat ≤ 13 → rm ≤ 4 → x < 2 ^ elemWidth f →
    (decodeElem f false 127 x).isNan = false → roundTo f rm false w (decodeElem f false 127 x) = (x, [])

/-- A row operand (04_numbers R110, R111; 06_vector_rows R166): of the tag asked for it reads as it stands; of tag NONE
as zeros, whatever ftm; of another tag it traps 0x00D where ftm is set or either format is KEY64 or TRIPLE; a poisoned
row raises 0x080, or reads as zeros once where its page substitutes zeros; else it is converted element by element (R112), with event
11 once: each element rounded to nearest even, an ACC96 slot at its row's anchor (R119), into ACC96 placed in an empty slot at anchor 0,
into a block-scaled format formed into blocks (R106); elements that the row does not have are zeros. That ftz flushes
at this conversion too, the element it reads and the one it gives, is the model's reading (log entry 33). -/
def Obligations.OperandReading : Prop :=
  ∀ (s : State) (n : BitVec 8) (c : Third) (f : BitVec 5) (r : Row), 1 ≤ f.toNat → f.toNat ≤ 25 →
    nth s.curTile.rows (s.strm.physV n) {} = r →
    (r.md.poison = false → r.md.tag = f →
      s.opnd (.v n) c f = .ok { f := f, el := rowElems r, scales := r.md.scales, anchor := r.md.anchor }) ∧
    (r.md.poison = false → r.md.tag = 0 → s.opnd (.v n) c f = .ok (zeroOpnd f)) ∧
    (r.md.poison = false → r.md.tag ≠ 0 → r.md.tag ≠ f → s.strm.ftm = true ∨ 24 ≤ r.md.tag.toNat ∨ 24 ≤ f.toNat →
      s.opnd (.v n) c f = .error 0x00D) ∧
    (r.md.poison = true → r.md.zs = false → s.opnd (.v n) c f = .error 0x080) ∧
    (r.md.poison = true → r.md.zs = true → s.opnd (.v n) c f = .ok (zeroOpnd f [12])) ∧
    (∀ a, s.opnd (.v n) c f = .ok a → a.el.length = lanes f) ∧
    (∀ ftz : Bool, let g := r.md.tag
      let el (i : Nat) : Nat := (rowElems r).getD i 0
      let val (i : Nat) : Val := if g = 23 then (accBlockValue (el i) r.md.anchor.toInt).1
        else decodeElem g ftz (if blockScaled g then scaleAt r.md.scales (i / 32) else 127) (el i)
      r.md.poison = false → g ≠ 0 → g ≠ f → g.toNat ≤ 23 → f.toNat ≤ 23 → s.strm.ftm = false →
      ∃ a, s.opnd (.v n) c f ftz = .ok a ∧ a.f = f ∧ a.once = [11] ∧ a.el.length = lanes f ∧
        (f.toNat ≤ 13 → ∀ i, i < lanes f → a.el[i]? = some (if lanes g ≤ i then 0
          else if g = 23 then (accOut f 0 ftz 0 (el i) r.md.anchor.toInt).1 else (convertTo f 0 ftz 0 (val i)).1)) ∧
        (f = 23 → a.anchor = 0 ∧ ∀ i, i < lanes f → a.el[i]? = some (if lanes g ≤ i then 0 else (accAdd 0 (val i) 0).1)) ∧
        (blockScaled f = true →
          let block (j : Nat) : Nat × List (Nat × List Nat) × List Nat := blockScale f 0 ((List.range 32).map (fun i =>
            (if lanes g ≤ 32 * j + i then Val.zero else val (32 * j + i), 0)))
          (∀ i, i < lanes f → a.el[i]? = some ((block (i / 32)).2.1.getD (i % 32) (0, [])).1) ∧
          ∀ j, j < lanes f / 32 → scaleAt a.scales j = (block j).1 % 256))

/-- VADD, VSUB, VMUL, VFMA and VFMS (06_vector_rows R178) and the ten special functions (R199, R200): each active lane
holds the exact result of its elements rounded once to the word's type with its rm and ftz; the sum lands at issue + 4,
the fused forms at issue + 5, the special functions at issue + 10, or 14 for SIN, COS and ERF. Their special arguments give the
values and events of Table 14; powers of two and their exponents are exact in EXP2 and LOG2, the reciprocal is the quotient to 256
bits beyond the argument's own with its remainder noted, and a square root is noted exact only where it is; the other values are those
of the model's interval bounds (log entry 15). With rm = sr the draw counter advances. -/
def Obligations.FloatWords : Prop :=
  (∀ (f : SpecialFn) (sn n : Bool) (m : Nat) (e : Int) (st : Bool), 0 < m →
    let nan : Exact := (.nan false, [0, 13])
    let zero (n : Bool) (e : Int) : Val := .fin n 0 e false
    let one (n : Bool) : Exact := (.fin n 1 0 false, [])
    let x : Val := .fin n m e st
    f.apply (.nan sn) = (.nan false, if sn then [0, 10] else []) ∧
    SpecialFn.exp2.apply (.inf true) = (.zero, []) ∧ SpecialFn.exp2.apply (.inf false) = (.inf false, []) ∧
    (∀ k : Nat, k < 2000 → SpecialFn.exp2.apply (.fin n k 0 st) = (.fin false 1 (if n then -k else k) false, [])) ∧
    SpecialFn.log2.apply (zero n e) = (.inf true, [1]) ∧ SpecialFn.log2.apply (.fin true m e st) = nan ∧
    SpecialFn.log2.apply (.inf true) = nan ∧ SpecialFn.log2.apply (.inf false) = (.inf false, []) ∧
    (∀ k : Nat, SpecialFn.log2.apply (.fin false (2 ^ k) e st) = (Val.ofInt (e + k), [])) ∧
    SpecialFn.rcp.apply (zero n e) = (.inf n, [1]) ∧ SpecialFn.rcp.apply (.inf n) = (zero n 0, []) ∧
    (∃ q r, SpecialFn.rcp.apply x = (.fin n q (-e - 256) r, []) ∧ q * m ≤ 2 ^ 256 ∧ 2 ^ 256 < (q + 1) * m ∧
      (r = true ↔ q * m ≠ 2 ^ 256)) ∧
    SpecialFn.rsq.apply (zero n e) = (.inf n, [1]) ∧ SpecialFn.rsq.apply (.fin true m e st) = nan ∧
    SpecialFn.rsq.apply (.inf true) = nan ∧ SpecialFn.rsq.apply (.inf false) = (.zero, []) ∧
    SpecialFn.sqrt.apply (zero n e) = (zero n e, []) ∧ SpecialFn.sqrt.apply (.fin true m e st) = nan ∧
    SpecialFn.sqrt.apply (.inf true) = nan ∧ SpecialFn.sqrt.apply (.inf false) = (.inf false, []) ∧
    (∃ r e' t, ∃ k : Nat, SpecialFn.sqrt.apply (.fin false m e st) = (.fin false r e' t, []) ∧ e = 2 * e' + k ∧
      (t = true ↔ r * r ≠ m * 2 ^ k)) ∧
    SpecialFn.sin.apply (.inf n) = nan ∧ SpecialFn.cos.apply (.inf n) = nan ∧
    SpecialFn.sin.apply (zero n e) = (zero n e, []) ∧ SpecialFn.cos.apply (zero n e) = one false ∧
    SpecialFn.tanh.apply (zero n e) = (zero n e, []) ∧ SpecialFn.tanh.apply (.inf n) = one n ∧
    SpecialFn.sigm.apply (zero n e) = (.fin false 1 (-1) false, []) ∧ SpecialFn.sigm.apply (.inf true) = (.zero, []) ∧
    SpecialFn.sigm.apply (.inf false) = one false ∧
    SpecialFn.erf.apply (zero n e) = (zero n e, []) ∧ SpecialFn.erf.apply (.inf n) = one n) ∧
  ∀ (h : Head) (o : Ops) (m : VMod) (s : State) (a b c : Opnd),
    s.opnd o.a o.c m.ty m.ftz = .ok a → s.opnd o.b o.c m.ty m.ftz = .ok b → s.opnd (cSel o.c) o.c m.ty m.ftz = .ok c →
    let v (e : Opnd) (j : Nat) : Val := decodeElem m.ty m.ftz 127 (e.el.getD j 0)
    let rnd (j : Nat) (x : Exact) : Nat := (finish m.ty m.rm.toNat m.ftz (s.srWord m.rm j) x).1
    let lands (i : Instr) (lat : Nat) (fn : Nat → Exact) : Prop :=
      Runs i s → LandsLanes i h o s lat m (m.rm == 4) m.ty (fun j => rnd j (fn j))
    lands (.vadd h o m) 4 (fun j => addV m.rm.toNat (v a j) (v b j)) ∧
    lands (.vsub h o m) 4 (fun j => addV m.rm.toNat (v a j) (v b j).negate) ∧
    lands (.vmul h o m) 4 (fun j => mulV (v a j) (v b j)) ∧
    lands (.vfma h o m) 5 (fun j => fmaV m.rm.toNat (v a j) (v b j) (v c j)) ∧
    lands (.vfms h o m) 5 (fun j => fmaV m.rm.toNat (v a j) (v b j) (v c j).negate) ∧
    lands (.fexp2 h o m) 10 (fun j => SpecialFn.exp2.apply (v a j)) ∧
    lands (.flog2 h o m) 10 (fun j => SpecialFn.log2.apply (v a j)) ∧
    lands (.frcp h o m) 10 (fun j => SpecialFn.rcp.apply (v a j)) ∧
    lands (.frsq h o m) 10 (fun j => SpecialFn.rsq.apply (v a j)) ∧
    lands (.fsqrt h o m) 10 (fun j => SpecialFn.sqrt.apply (v a j)) ∧
    lands (.fsin h o m) 14 (fun j => SpecialFn.sin.apply (v a j)) ∧
    lands (.fcos h o m) 14 (fun j => SpecialFn.cos.apply (v a j)) ∧
    lands (.ftanh h o m) 10 (fun j => SpecialFn.tanh.apply (v a j)) ∧
    lands (.fsigm h o m) 10 (fun j => SpecialFn.sigm.apply (v a j)) ∧
    lands (.ferf h o m) 14 (fun j => SpecialFn.erf.apply (v a j))

/-- The lane words that work on patterns and integers, all landing at issue + 4 (06_vector_rows R179, R180, R187): sign
inverted or cleared, the minimum and maximum families, keys, sums wrapped or saturated, bitwise operations, shifts. Of integers
the smaller or larger is that of their signed or unsigned values; of floating patterns that of their values with −0 below +0, where a
NaN gives the canonical NaN or, in the number family, the other operand (04_numbers R120); of keys that of the higher or lower rank,
every NaN above +∞, then of the lower index, then the left (R121). Comparisons take −0 and +0 as equal and are false with a NaN but
for ne and un (06_vector_rows R181). VCMP
writes a lane predicate at issue + 4, at every position of each active lane, with .x and-ed to the old one (06_vector_rows
R181); VSEL takes a where qs is true and b elsewhere (R182). VDOT adds to each INT32 of C the products of a group of elements,
saturating, and makes the elements beyond the groups 0 (R188). -/
def Obligations.LaneWords : Prop :=
  (∀ (h : Head) (o : Ops) (m : VMod) (s : State) (a b c : Opnd),
      s.opnd o.a o.c m.ty m.ftz = .ok a → s.opnd o.b o.c m.ty m.ftz = .ok b → s.opnd (cSel o.c) o.c m.ty m.ftz = .ok c →
      let w := elemWidth m.ty
      let x (j : Nat) : Nat := a.el.getD j 0
      let y (j : Nat) : Nat := b.el.getD j 0
      let lands (i : Instr) (fn : Nat → Nat) : Prop := Runs i s → LandsLanes i h o s 4 m false m.ty fn
      let fit (t : Int) : Nat :=
        ((if m.x then max (intRange m.ty).1 (min (intRange m.ty).2 t) else t) % 2 ^ w).toNat
      lands (.vneg h o m) (fun j => (x j + 2 ^ (w - 1)) % 2 ^ w) ∧
      lands (.vabs h o m) (fun j => x j % 2 ^ (w - 1)) ∧
      lands (.vmin h o m) (fun j => (minMax m.ty false false (x j) (y j)).1) ∧
      lands (.vmax h o m) (fun j => (minMax m.ty true false (x j) (y j)).1) ∧
      lands (.vminn h o m) (fun j => (minMax m.ty false true (x j) (y j)).1) ∧
      lands (.vmaxn h o m) (fun j => (minMax m.ty true true (x j) (y j)).1) ∧
      lands (.vmaxi h o m) (fun j => keySelect true (x j) (y j)) ∧
      lands (.vmini h o m) (fun j => keySelect false (x j) (y j)) ∧
      lands (.viadd h o m) (fun j => fit (intElem m.ty (x j) + intElem m.ty (y j))) ∧
      lands (.visub h o m) (fun j => fit (intElem m.ty (x j) - intElem m.ty (y j))) ∧
      lands (.vimul h o m) (fun j => fit (intElem m.ty (x j) * intElem m.ty (y j))) ∧
      lands (.vand h o m) (fun j => Nat.land (x j) (y j)) ∧
      lands (.vor h o m) (fun j => Nat.lor (x j) (y j)) ∧
      lands (.vxor h o m) (fun j => Nat.xor (x j) (y j)) ∧
      lands (.vnot h o m) (fun j => 2 ^ w - 1 - x j) ∧
      lands (.vshl h o m) (fun j => if w ≤ y j then 0 else x j * 2 ^ y j % 2 ^ w) ∧
      lands (.vshr h o m) (fun j => if w ≤ y j then 0 else x j / 2 ^ y j) ∧
      lands (.vsar h o m) (fun j => if m.ty.toNat ≤ 4 then (sintOf w (x j) / 2 ^ min (y j) (w - 1) % 2 ^ w).toNat
        else if w ≤ y j then 0 else x j / 2 ^ y j)) ∧
  (let key (w x : Nat) : Int := if x < 2 ^ (w - 1) then x else (2 ^ (w - 1) : Int) - 1 - x;
    (∀ (f : BitVec 5) (mx num : Bool) (x y : Nat), let w := elemWidth f
      let p := decodeElem f false 127 x
      let q := decodeElem f false 127 y
      (1 ≤ f.toNat → f.toNat ≤ 7 → x < 2 ^ w → y < 2 ^ w →
        minMax f mx num x y = (if intElem f x ≤ intElem f y then (if mx then y else x) else if mx then x else y, [])) ∧
      (8 ≤ f.toNat → f.toNat ≤ 13 → x < 2 ^ w → y < 2 ^ w →
        (minMax f mx num x y).2 = (if p.isSnan = true ∨ q.isSnan = true then [0, 10] else []) ∧
        (p.isNan = true → q.isNan = true → (minMax f mx num x y).1 = canonNan f) ∧
        (p.isNan = true → q.isNan = false → (minMax f mx num x y).1 = if num then y else canonNan f) ∧
        (p.isNan = false → q.isNan = true → (minMax f mx num x y).1 = if num then x else canonNan f) ∧
        (p.isNan = false → q.isNan = false →
          (minMax f mx num x y).1 = if key w x ≤ key w y then (if mx then y else x) else if mx then x else y))) ∧
    (∀ (mx : Bool) (x y : Nat), let rank (p : Nat) : Int :=
        if (decodeElem 12 false 127 (p / 2 ^ 32)).isNan then 2 ^ 31 else key 32 (p / 2 ^ 32);
      x < 2 ^ 64 → y < 2 ^ 64 →
      (rank x < rank y → keySelect mx x y = if mx then y else x) ∧ (rank y < rank x → keySelect mx x y = if mx then x else y) ∧
      (rank x = rank y → keySelect mx x y = if y % 2 ^ 32 < x % 2 ^ 32 then y else x)) ∧
    (∀ (c : Nat) (a b : Val), c < 8 →
      (vcmpCond c a b).2 = (if a.isSnan = true ∨ b.isSnan = true then [0, 10]
        else if (a.isNan = true ∨ b.isNan = true) ∧ 2 ≤ c ∧ c ≤ 5 then [0] else []) ∧
      (a.isNan = true ∨ b.isNan = true → (vcmpCond c a b).1 = (c == 1 || c == 6)) ∧
      (a.isNan = false → b.isNan = false → (vcmpCond c a b).1 = match c with
        | 0 => cmpV a b == .eq
        | 1 => cmpV a b != .eq
        | 2 => cmpV a b == .lt
        | 3 => cmpV a b != .gt
        | 4 => cmpV a b == .gt
        | 5 => cmpV a b != .lt
        | 6 => false
        | _ => true)) ∧
    (∀ (n1 n2 : Bool) (m1 m2 : Nat) (e1 e2 u : Int) (st1 st2 : Bool), let a : Val := .fin n1 m1 e1 st1;
      (u ≤ e1 → u ≤ e2 → cmpV a (.fin n2 m2 e2 st2) = compare (unitsOf u n1 m1 e1) (unitsOf u n2 m2 e2)) ∧
      cmpV (.inf n1) a = (if n1 then .lt else .gt) ∧ cmpV a (.inf n2) = (if n2 then .gt else .lt) ∧
      cmpV (.inf n1) (.inf n2) = (if n1 = n2 then .eq else if n1 then .lt else .gt)) ∧
    ∀ (f : BitVec 5) (z : Bool) (sc x : Nat), 1 ≤ f.toNat → f.toNat ≤ 7 → decodeElem f z sc x = Val.ofInt (intElem f x)) ∧
  ((∀ (h : Head) (o : Ops) (m : VMod) (s : State) (a b : Opnd) (pd : BitVec 4),
      s.opnd o.a o.c m.ty m.ftz = .ok a → s.opnd o.b o.c m.ty m.ftz = .ok b → o.d = .p pd → Runs (.vcmp h o m) s →
      ∃ v mask evs, exec (.vcmp h o m) s = .next (s.post 4 (s.landQ s.strmNo pd m.z mask
          (if m.x then v &&& s.strm.readQ pd else v)) evs) ∧
        ∀ p, p < 512 → lanes m.ty ≤ 512 → let j := p * lanes m.ty / 512
          mask.getLsbD p = (guardQ h s.strm).getLsbD (posOf m.ty j) ∧ (laneOn h s m.ty j → v.getLsbD p
            = (vcmpCond m.rm.toNat ((a.vals m.ftz).getD j .zero) ((b.vals m.ftz).getD j .zero)).1)) ∧
    (∀ (h : Head) (o : Ops) (m : VMod) (s : State) (a b : Opnd) (ps : BitVec 4) (e : BitVec 20),
      s.opnd o.a o.c m.ty m.ftz = .ok a → s.opnd o.b o.c m.ty m.ftz = .ok b → o.c = .sel (.p ps) e → Runs (.vsel h o m) s →
      LandsLanes (.vsel h o m) h o s 4 m false m.ty
        (fun j => if (s.strm.readQ ps).getLsbD (posOf m.ty j) then a.el.getD j 0 else b.el.getD j 0)) ∧
    (∀ (h : Head) (o : Ops) (m : VMod) (s : State) (a b c : Opnd) (k : Nat),
      s.opnd o.a o.c m.ty m.ftz = .ok a → s.opnd o.b o.c m.ty m.ftz = .ok b → s.opnd (cSel o.c) o.c 3 = .ok c →
      k = 2 ^ ((extra o.c).extractLsb' 0 4).toNat → Runs (.vdot h o m) s →
      ∃ el evs, exec (.vdot h o m) s = .next ((s.vwrite 6 o.d m (stationOf s.strmNo)
          { f := 3, el := el, act := guardQ h s.strm, evs := evs })) ∧
        (∀ j, lanes m.ty / k ≤ j → el.getD j 0 = 0) ∧ ∀ j, j < lanes m.ty / k → laneOn h s 3 j → el.getD j 0 = ((max (-2 ^ 31) (min (2 ^ 31 - 1)
          (intElem 3 (c.el.getD j 0) + ((List.range k).map (fun i => intElem m.ty (a.el.getD (j * k + i) 0)
            * intElem m.ty (b.el.getD (j * k + i) 0))).sum)) : Int) % 2 ^ 32).toNat))

/-- Conversion and scaling (06_vector_rows R183, R184): VCVT converts the elements of a row of any tag but KEY64 and
TRIPLE; between two unblocked formats of as many lanes each active lane is the element rounded once. VSCL multiplies by
2^n. Both land at issue + 4; an operand that cannot be read raises its cause and nothing lands, as a part the row does not have
raises 0x004 and a KEY64 or TRIPLE source 0x00D. -/
def Obligations.ConversionWords : Prop :=
  ∀ (h : Head) (o : Ops) (m : VMod) (s : State),
    (Runs (.vcvt h o m) s →
      (∀ v, vcvtComp o m (guardQ h s.strm) s = .ok v →
        exec (.vcvt h o m) s = .next ((s.vwrite 4 o.d m (stationOf s.strmNo) v).advanceDraw (m.rm == 4))) ∧
      (∀ c, vcvtComp o m (guardQ h s.strm) s = .error c → exec (.vcvt h o m) s = .next (s.raise c)) ∧
      (∀ n r, o.a = .v n → HoldsRow s n r → 1 ≤ r.md.tag.toNat → r.md.tag.toNat ≤ 13 → 1 ≤ m.ty.toNat → m.ty.toNat ≤ 13 →
        lanes r.md.tag = lanes m.ty → (extra o.c).extractLsb' 0 5 = 0 →
        LandsLanes (.vcvt h o m) h o s 4 m (m.rm == 4) m.ty (fun j =>
          (convertTo m.ty m.rm.toNat m.ftz (s.srWord m.rm j)
            (decodeElem r.md.tag m.ftz 127 ((rowElems r).getD j 0))).1)) ∧
      (∀ n r, o.a = .v n → HoldsRow s n r → r.md.tag ≠ 0 →
        let t := lanes r.md.tag
        let parts := if lanes m.ty ≤ t then t / lanes m.ty else lanes m.ty / t
        (parts ≤ ((extra o.c).extractLsb' 0 5).toNat → exec (.vcvt h o m) s = .next (s.raise 0x004)) ∧
        (((extra o.c).extractLsb' 0 5).toNat < parts → r.md.tag = 24 ∨ r.md.tag = 25 →
          exec (.vcvt h o m) s = .next (s.raise 0x00D)))) ∧
    (Runs (.vscl h o m) s → ∀ a, s.opnd o.a o.c m.ty m.ftz = .ok a →
      (∃ v, vsclComp o m (guardQ h s.strm) s = .ok v ∧
        exec (.vscl h o m) s = .next ((s.vwrite 4 o.d m (stationOf s.strmNo) v).advanceDraw (m.rm == 4))) ∧
      (m.ty.toNat ≤ 13 → LandsLanes (.vscl h o m) h o s 4 m (m.rm == 4) m.ty (fun j =>
        let v := decodeElem m.ty m.ftz 127 (a.el.getD j 0)
        (finish m.ty m.rm.toNat m.ftz (s.srWord m.rm j) (match v with
          | .nan _ => nanResult false [v]
          | _ => (scaleVal v (clampExp ((s.uintVal o.b o.c).extractLsb' 0 32).toInt), []))).1)))

/-- Packing, tagging and moving (06_vector_rows R185, R186, R189, R190): every element of the result, whose active
positions land at issue + 4, at issue + 6 for VPERM and VSHF. That VTAG to ACC96 keeps the bits above a slot's 108 is the model's choice
(log entry 106). -/
def Obligations.MovementWords : Prop :=
  ∀ (h : Head) (o : Ops) (m : VMod) (s : State) (a b : Opnd),
    let l := lanes m.ty
    let w := elemWidth m.ty
    let z := zeroOf m.ty
    let g := guardQ h s.strm
    let half := 64 * ((extra o.c).extractLsb' 0 1).toNat
    (Runs (.vpack h o m) s → m.x = false → s.opnd o.a o.c m.ty m.ftz = .ok a → s.opnd o.b o.c m.ty m.ftz = .ok b →
      LandsRow (.vpack h o m) o s 4 m false m.ty (a.el.take (l / 2) ++ b.el.take (l / 2)) 0 0 g) ∧
    (Runs (.vpack h o m) s → m.x = true → s.opnd o.a o.c 12 = .ok a → s.opnd o.b o.c 7 = .ok b →
      LandsLanes (.vpack h o m) h o s 4 m false m.ty
        (fun j => a.el.getD (half + j) 0 * 2 ^ 32 + b.el.getD (half + j) 0)) ∧
    (Runs (.vunpk h o m) s → m.x = false → s.opnd o.a o.c m.ty m.ftz = .ok a →
      LandsRow (.vunpk h o m) o s 4 m false m.ty (a.el.drop (l / 2) ++ List.replicate (l / 2) z) 0 a.anchor g) ∧
    (Runs (.vunpk h o m) s → m.x = true → s.opnd o.a o.c 24 = .ok a →
      LandsLanes (.vunpk h o m) h o s 4 m false m.ty (fun j => if half ≤ j ∧ j < half + 64
        then (if m.ty = 12 then a.el.getD (j - half) 0 / 2 ^ 32 else a.el.getD (j - half) 0 % 2 ^ 32) else z)) ∧
    (∀ r e, Runs (.vtag h o m) s → s.raw o.a = .ok (r, e) →
      LandsRow (.vtag h o m) o s 4 m false m.ty (elems w l r.data.toNat)
        (if blockScaled m.ty && blockScaled r.md.tag then r.md.scales else 0)
        (if m.ty = 23 ∧ r.md.tag = 23 then r.md.anchor else 0) g) ∧
    (Runs (.vmov h o m) s → s.opnd o.a o.c m.ty m.ftz = .ok a →
      LandsRow (.vmov h o m) o s 4 m false m.ty a.el a.scales a.anchor g) ∧
    (∀ v, Runs (.vlit h o m) s → m.ty.toNat ≤ 7 → m.ty ≠ 4 → o.a = .lit → o.c = .lit v →
      LandsLanes (.vlit h o m) h o s 4 m false m.ty (fun j => (v.toNat % 2 ^ w + if m.x then j else 0) % 2 ^ w)) ∧
    (Runs (.vlit h o m) s → m.x = false → m.ty ≠ 24 →
      LandsRow (.vlit h o m) o s 4 m false m.ty (scalarOpnd m.ty o.a o.c).el 0 0 g) ∧
    (∀ n, Runs (.vbcst h o m) s → o.a = .a n → m.ty.toNat ≤ 13 →
      LandsLanes (.vbcst h o m) h o s 4 m false m.ty (fun _ => (s.strm.readA n).toNat % 2 ^ w)) ∧
    ((∀ n, o.a ≠ .a n) → Runs (.vbcst h o m) s → s.opnd o.a o.c m.ty m.ftz = .ok a →
      LandsRow (.vbcst h o m) o s 4 m false m.ty (List.replicate l (a.el.getD ((s.uintVal o.b o.c).toNat % l) 0))
        (sameScale m.ty (scaleAt a.scales ((s.uintVal o.b o.c).toNat % l / 32))) a.anchor g) ∧
    (Runs (.vperm h o m) s → s.opnd o.a o.c m.ty m.ftz = .ok a → s.opnd o.b o.c 6 = .ok b →
      LandsRow (.vperm h o m) o s 6 m false m.ty ((b.el.take l).map (fun k => a.el.getD k z)) 0 a.anchor g) ∧
    (Runs (.vshf h o m) s → s.opnd o.a o.c m.ty m.ftz = .ok a → s.opnd o.b o.c m.ty m.ftz = .ok b →
      let n := (s.uintVal (cSel o.c) o.c).toNat
      LandsLanes (.vshf h o m) h o s 6 m false m.ty (fun j => if j + n < 2 * l then (a.el ++ b.el).getD (j + n) z else z))

/-- Reductions and compaction (06_vector_rows R191, R192): VRED lands at issue + 10 the canonical tree over the active
lanes in lane 0 and zeros elsewhere; VSCAN at issue + 12 the tree over the lanes up to each; VCMPT the active elements
moved to the front, zeros behind. A node is the sum of its two operands (integers wrapped with event 14, floating values rounded once,
ACC96 modulo 2^104 with the special bits OR-ed), their minimum or maximum, the selected key, or a bitwise operation (Table 11;
04_numbers R120, R121). The canonical tree (04_numbers R122): one operand is itself; over 2^(k+1) operands it is the
node of the trees of its halves, the lower half on the left; a number of operands that is no power of two is filled up with
absent ones; and a node with an absent half is the other half. -/
def Obligations.ReductionWords : Prop :=
  (∀ (h : Head) (o : Ops) (m : VMod) (s : State) (a : Opnd), s.opnd o.a o.c m.ty m.ftz = .ok a →
      let l := lanes m.ty
      let on := activeLanes m.ty (guardQ h s.strm)
      let xs := present on a.el
      (Runs (.vred h o m) s → LandsRow (.vred h o m) o s 10 m (m.rm == 4) m.ty
        ((canonicalTree (s.wordNode o m) xs).1.getD (zeroOf m.ty) :: List.replicate (l - 1) (zeroOf m.ty)) 0 a.anchor
        (BitVec.allOnes 512)) ∧
      (Runs (.vscan h o m) s → ∃ el, LandsRow (.vscan h o m) o s 12 m (m.rm == 4) m.ty el 0 a.anchor (guardQ h s.strm) ∧
        ∀ j, j < l → laneOn h s m.ty j → el.getD j 0
          = (canonicalTree (s.wordNode o m) (xs.take (if m.x then j else j + 1))).1.getD (zeroOf m.ty)) ∧
      (Runs (.vcmpt h o m) s → LandsRow (.vcmpt h o m) o s 12 m false m.ty
        ((((on.zip a.el).filter (fun p => p.1)).map Prod.snd ++ List.replicate l (zeroOf m.ty)).take l) 0 a.anchor
        (BitVec.allOnes 512))) ∧
  (∀ (s : State) (o : Ops) (m : VMod) (i l r : Nat), let op := ((extra o.c).extractLsb' 0 4).toNat
    let f := m.ty
    let w := elemWidth f
    let node := s.wordNode o m i l r
    (op = 0 → f = 23 → node = (Nat.lor (l / 2 ^ 104 % 16) (r / 2 ^ 104 % 16) * 2 ^ 104 + (l + r) % 2 ^ 104, [])) ∧
    (op = 0 → 1 ≤ f.toNat → f.toNat ≤ 7 → let t := intElem f l + intElem f r
      node = ((t % 2 ^ w).toNat, if t < (intRange f).1 ∨ (intRange f).2 < t then [14] else [])) ∧
    (op = 0 → 8 ≤ f.toNat → f.toNat ≤ 13 → node = finish f m.rm.toNat m.ftz (s.srWord m.rm i)
      (addV m.rm.toNat (decodeElem f m.ftz 127 l) (decodeElem f m.ftz 127 r))) ∧
    (1 ≤ op → op ≤ 4 → node = minMax f (op = 1 ∨ op = 3) (3 ≤ op) l r) ∧
    (op = 5 → node = (keySelect true l r, [])) ∧ (op = 6 → node = (keySelect false l r, [])) ∧
    (op = 7 → node = (Nat.land l r, [])) ∧ (op = 8 → node = (Nat.lor l r, [])) ∧ (op = 9 → node = (Nat.xor l r, []))) ∧
  (∀ (op : Nat → Nat → Nat → Nat × List Nat) (k : Nat) (xs ys : List Nat), k ≤ 10 → xs.length = 2 ^ k → ys.length = 2 ^ k →
      (∀ i j a b, (op i a b).1 = (op j a b).1) →
      (∀ x, canonicalTree op [some x] = (some x, [])) ∧
      (∃ l r, (canonicalTree op (xs.map some)).1 = some l ∧ (canonicalTree op (ys.map some)).1 = some r ∧
        (canonicalTree op ((xs ++ ys).map some)).1 = some (op 0 l r).1)) ∧
  (∀ (op : Nat → Nat → Nat → Nat × List Nat) (k : Nat) (xs ys : List (Option Nat)), k ≤ 10 → xs.length = 2 ^ k →
      ys.length ≤ 2 ^ k → (∀ i j a b, (op i a b).1 = (op j a b).1) →
      (canonicalTree op (ys ++ List.replicate (2 ^ k - ys.length) none)).1 = (canonicalTree op ys).1 ∧
      (canonicalTree op (xs ++ ys)).1 = match (canonicalTree op xs).1, (canonicalTree op ys).1 with
        | some l, some r => some (op 0 l r).1
        | some l, none => some l
        | none, r => r)

/-- Votes and lane predicates (06_vector_rows R193, R194): VANY, VALL and VPOPC at issue + 2 over the positions of the
guard; QSET.len, .bc and .fn at issue + 2 and .copy at issue + 3 write the guard's positions of a predicate and keep or
clear the others. -/
def Obligations.LanePredicateWords : Prop :=
  ∀ (h : Head) (o : Ops) (z : Bool) (ty : BitVec 5) (s : State) (pa pb pd : BitVec 4),
    let g := guardQ h s.strm
    let q := s.strm.readQ pa
    let dst := (extra o.c).extractLsb' 0 4
    let sets (i : Instr) (lat k : Nat) (bit : Nat → Bool) : Prop :=
      ∃ v : QReg, (∀ j, j < 512 → v.getLsbD j = bit j) ∧ exec i s = .next (s.post lat (s.landQ k pd z g v))
    (o.a = .p pa → Runs (.vany h o) s →
      exec (.vany h o) s = .next (s.post 2 (s.landP dst ((List.range 512).any (fun j => g.getLsbD j && q.getLsbD j))))) ∧
    (o.a = .p pa → Runs (.vall h o) s →
      exec (.vall h o) s = .next (s.post 2 (s.landP dst ((List.range 512).all (fun j => !g.getLsbD j || q.getLsbD j))))) ∧
    (∀ d, o.a = .p pa → o.d = .a d → Runs (.vpopc h o ty) s →
      exec (.vpopc h o ty) s = .next (s.writeA 2 d (BitVec.ofNat 64 ((List.range (lanes ty)).countP (fun i =>
        g.getLsbD (i * 512 / lanes ty) && q.getLsbD (i * 512 / lanes ty)))))) ∧
    (o.d = .p pd →
      (Runs (.qsetLen h o z ty) s → sets (.qsetLen h o z ty) 2 s.strmNo
        (fun j => decide (j * lanes ty / 512 < (s.uintVal o.a o.c).toNat))) ∧
      (∀ n, o.a = .a n → Runs (.qsetBc h o z) s → sets (.qsetBc h o z) 2 s.strmNo (fun _ => decide (s.strm.readA n ≠ 0))) ∧
      (∀ f e, o.a = .p pa → o.b = .p pb → o.c = .sel (.imm f) e → Runs (.qsetFn h o z) s → sets (.qsetFn h o z) 2 s.strmNo
        (fun j => f.getLsbD (2 * (q.getLsbD j).toNat + ((s.strm.readQ pb).getLsbD j).toNat))) ∧
      (o.a = .p pa → Runs (.qsetCopy h o z) s → sets (.qsetCopy h o z) 3 dst.toNat (fun j => q.getLsbD j)))

/-- Random words, hashes and attention triples (06_vector_rows R195 to R198): VRNG lands at issue + 4 the Philox word of
each lane, or its upper 24 bits as a fraction, and advances the draw counter; VHSH the hash of two words and the seed;
VATC at issue + 9 the combination of triples, and VATF the finalized record; a record is written whole where position 0 is active,
and otherwise no lane of it (that its row is then merged with none is log entry 94). The random word of an element is the Philox4x32-10 word of its counter
and the job's seed (04_numbers R115); the hash is that of 06_vector_rows R196; two triples combine by the larger m, the other scaled by
2 to the difference (04_numbers R123), and finalize divides v by s, with NaN, infinities and zeros as a division has them (R124). -/
def Obligations.RandomHashTriple : Prop :=
  (∀ (s : State) (b x k e : Nat), s.core = .tile b x k → e < 1024 → let y := s.bay b
    let d := s.strm.draw
    let round (q : (BitVec 32 × BitVec 32 × BitVec 32 × BitVec 32) × BitVec 32 × BitVec 32) :=
      let p : BitVec 64 := 0xD2511F53#64 * q.1.1.setWidth 64
      let r : BitVec 64 := 0xCD9E8D57#64 * q.1.2.2.1.setWidth 64
      ((r.extractLsb' 32 32 ^^^ q.1.2.1 ^^^ q.2.1, r.extractLsb' 0 32, p.extractLsb' 32 32 ^^^ q.1.2.2.2 ^^^ q.2.2,
        p.extractLsb' 0 32), q.2.1 + 0x9E3779B9#32, q.2.2 + 0xBB67AE85#32)
    let w := ((List.range 10).foldl (fun q _ => round q) ((d.extractLsb' 0 32, d.extractLsb' 32 24 ++ BitVec.ofNat 8 (e / 4),
      0#5 ++ BitVec.ofNat 7 (y.lidxOf x) ++ y.rankid, (BitVec.ofNat 4 k).setWidth 32),
      y.seed.extractLsb' 0 32, y.seed.extractLsb' 32 32)).1
    s.drawWord e = (match e % 4 with
      | 0 => w.1
      | 1 => w.2.1
      | 2 => w.2.2.1
      | _ => w.2.2.2).toNat) ∧
  (∀ a b seed : BitVec 32,
    let x₀ := a ^^^ (b.extractLsb' 0 16 ++ b.extractLsb' 16 16) ^^^ seed
    let x₁ := (x₀ ^^^ (x₀ >>> 16)) * 0x9E3B6C5D
    let x₂ := (x₁ ^^^ (x₁ >>> 13)) * 0x85A32F1B
    hashOf a b seed = x₂ ^^^ (x₂ >>> 16)) ∧
  (∀ l r : Triple, let v (x : Nat) : Val := decodeElem 12 false 127 x
    let fma (a b c : Nat) : Nat := (finish 12 0 false 0 (fmaV 0 (v a) (v b) (v c))).1
    ((v l.m).isNan = true ∨ (v r.m).isNan = true →
      (combine l r).1 = { m := 0x7FC00000, s := 0x7FC00000, v := l.v.map (fun _ => 0x7FC00000) }) ∧
    ((v l.m).isNan = false → (v r.m).isNan = false →
      let hi := if cmpV (v l.m) (v r.m) = .lt then r else l
      let lo := if cmpV (v l.m) (v r.m) = .lt then l else r
      let d := (finish 12 0 false 0 (addV 0 (v lo.m) (v hi.m).negate)).1
      let scale := if cmpV (v l.m) (v r.m) = .eq then 0x3F800000
        else (finish 12 0 false 0 (SpecialFn.exp2.apply (v d))).1
      (combine l r).1 = if scale = 0 then hi
        else { m := hi.m, s := fma scale lo.s hi.s, v := (lo.v.zip hi.v).map (fun p => fma scale p.1 p.2) })) ∧
  (∀ t : Triple, let v (x : Nat) : Val := decodeElem 12 false 127 x
    (t.s % 2 ^ 31 = 0 → (finalize t).1 = t.v.map (fun _ => 0)) ∧
    (t.s % 2 ^ 31 ≠ 0 → (finalize t).1.length = t.v.length ∧ ∀ (i a : Nat), t.v[i]? = some a → ∃ z, (finalize t).1[i]? = some z ∧
      let gives (x : Val) : Prop := z = (finish 12 0 false 0 (x, [])).1
      ((v a).isNan = true ∨ (v t.s).isNan = true → gives (.nan false)) ∧
      (∀ n n', v a = .inf n → v t.s = .inf n' → gives (.nan false)) ∧
      (∀ n n' m e st, v a = .inf n → v t.s = .fin n' m e st → gives (.inf (n ^^ n'))) ∧
      (∀ n n' m e st, v a = .fin n m e st → v t.s = .inf n' → gives (.fin (n ^^ n') 0 0 false)) ∧
      (∀ n n' e m' e' st st', v a = .fin n 0 e st → v t.s = .fin n' m' e' st' → gives (.fin (n ^^ n') 0 0 false)) ∧
      (∀ n n' m e m' e' st st', 0 < m → v a = .fin n m e st → v t.s = .fin n' m' e' st' → ∃ q r,
        gives (.fin (n ^^ n') q (e - e' - 256) r) ∧ q * m' ≤ m * 2 ^ 256 ∧ m * 2 ^ 256 < (q + 1) * m' ∧
        (r = true ↔ q * m' ≠ m * 2 ^ 256)))) ∧
  ∀ (h : Head) (o : Ops) (m : VMod) (s : State) (a b : Opnd),
    (Runs (.vrng h o m) s → LandsLanes (.vrng h o m) h o s 4 m true m.ty (fun j =>
      if m.ty = 7 then s.drawWord j else (roundTo 12 0 false 0 (.fin false (s.drawWord j / 256) (-24) false)).1)) ∧
    (Runs (.vhsh h o m) s → s.opnd o.a o.c m.ty m.ftz = .ok a → s.opnd o.b o.c m.ty m.ftz = .ok b →
      LandsLanes (.vhsh h o m) h o s 4 m false m.ty (fun j => (hashOf (BitVec.ofNat 32 (a.el.getD j 0))
        (BitVec.ofNat 32 (b.el.getD j 0)) ((s.intVal (cSel o.c) o.c).extractLsb' 0 32)).toNat)) ∧
    (Runs (.vatc h o m) s → m.ty = 25 → s.opnd o.a o.c 25 m.ftz = .ok a → s.opnd o.b o.c 25 m.ftz = .ok b →
      LandsLanes (.vatc h o m) h o s 9 m false 25 (fun j =>
        let t := (combine { m := a.el.getD j 0 % 2 ^ 32, s := a.el.getD j 0 / 2 ^ 32, v := [] }
          { m := b.el.getD j 0 % 2 ^ 32, s := b.el.getD j 0 / 2 ^ 32, v := [] }).1
        t.m + t.s * 2 ^ 32)) ∧
    (Runs (.vatc h o m) s → m.ty = 12 → s.opnd o.a o.c 12 m.ftz = .ok a → s.opnd o.b o.c 12 m.ftz = .ok b →
      let t := (combine (recordOf a.el) (recordOf b.el)).1
      LandsRow (.vatc h o m) o s 9 m false 12 (t.m :: t.s :: t.v) 0 0 (wholeRecord (guardQ h s.strm))) ∧
    (Runs (.vatf h o m) s → s.opnd o.a o.c 12 = .ok a →
      LandsRow (.vatf h o m) o s 9 m false 12 ((finalize (recordOf a.el)).1 ++ [0, 0]) 0 0 (wholeRecord (guardQ h s.strm)))

/-! ## Offset queue, matrix engine, exchange -/

/-- A decode job opens with the offsets of its source (10_queues R276, R282): the positions of a bitmap's ones, the
positions that run-length pairs cover, a range of columns, or indices, each plus the base, from a row or a lane; one with a slot
source opens with the slot, which it reads once the tokens it consumes have completed. At 256 open jobs, or a slot
source in strict mode, it raises 0x053; a count out of its range raises 0x004. XRATE sets the push cap, XOFF the mode,
XEND discards entries and jobs, XCNT reads the counts, all at issue + 1; XOFF with open jobs raises 0x053, XRATE out of
1 to 16 raises 0x004 (10_queues R283). -/
def Obligations.OffsetQueueWords : Prop :=
  (∀ (h : Head) (o : Ops) (g : BitVec 3) (ty : BitVec 5) (s : State) (b x k : Nat) (r : Row), s.core = .tile b x k →
      (∃ n, o.d = .v n ∧ HoldsRow s n r) ∨
        (∃ aw n, o.d = .lane aw n ∧ (s.tile b x).tap aw n (stationOf k) s.tc = some r ∧ r.md.poison = false) →
      let t := s.tile b x
      let cnt := s.intVal o.b o.c
      let base := (s.intVal o.a o.c).toNat
      let inBmp : Prop := 1 ≤ cnt.toNat ∧ cnt.toNat ≤ 4096
      let inRle : Prop := 1 ≤ cnt.toNat ∧ cnt.toNat ≤ 128
      let inCsr : Prop := (cnt.extractLsb' 0 16).toNat ≤ (cnt.extractLsb' 16 16).toNat ∧ (cnt.extractLsb' 16 16).toNat ≤ 128
      let inIdx : Prop := 1 ≤ cnt.toNat ∧ cnt.toNat ≤ lanes ty
      let entry (v : Nat) : BitVec 33 := BitVec.ofNat 33 ((base + v) % 2 ^ 32)
      let job (es : List (BitVec 33)) : SxJob := { t0 := s.tc, w0 := s.wc, strict := t.oq.strict, waits := [],
                                                   src := .ready es, started := false, finished := false }
      let opens (i : Instr) (es : List (BitVec 33)) : Prop := Runs i s →
        exec i s = .next (s.setTile b x { t with oq := { t.oq with jobs := t.oq.jobs ++ [job es] } })
      (t.oq.jobs.length < 256 →
        (inBmp → ∃ es, opens (.xbmp h o false g) es ∧
          es = ((List.range cnt.toNat).filter (fun j => r.data.getLsbD j)).map entry) ∧
        (r.md.tag = 6 → inRle →
          opens (.xrle h o false g) (rleEntries (base % 2 ^ 32) ((pairsOf (rowElems r)).take cnt.toNat))) ∧
        (r.md.tag = 7 → inCsr →
          opens (.xcsr h o false g) ((((rowElems r).take (cnt.extractLsb' 16 16).toNat).drop
            (cnt.extractLsb' 0 16).toNat).map entry)) ∧
        (r.md.tag = ty → inIdx →
          opens (.xidx h o false g ty) (((rowElems r).take cnt.toNat).map entry)) ∧
        ∀ i, i = .xbmp h o false g ∧ ¬inBmp ∨ i = .xrle h o false g ∧ ¬inRle ∨ i = .xcsr h o false g ∧ ¬inCsr ∨
            i = .xidx h o false g ty ∧ ¬inIdx → Runs i s → exec i s = .next (s.raise 0x004)) ∧
      (256 ≤ t.oq.jobs.length → ∀ i, i = .xbmp h o false g ∧ inBmp ∨ i = .xrle h o false g ∧ inRle ∧ r.md.tag = 6 ∨
          i = .xcsr h o false g ∧ inCsr ∧ r.md.tag = 7 ∨ i = .xidx h o false g ty ∧ inIdx ∧ r.md.tag = ty →
        Runs i s → exec i s = .next (s.raise 0x053)) ∧
      (∀ pos ps, rleEntries pos ps = match ps with
        | [] => []
        | (skip, run) :: rest => (List.range run).map (fun j => BitVec.ofNat 33 ((pos + skip + j) % 2 ^ 32))
            ++ rleEntries (pos + skip + run) rest)) ∧
  (∀ (h : Head) (o : Ops) (g : BitVec 3) (ty : BitVec 5) (s : State) (b x k d : Nat) (i : Instr) (form : Nat) (fmt : BitVec 5),
      s.core = .tile b x k → d = (s.regOf o.d).toNat → Runs i s →
      let t := s.tile b x
      let cnt := s.intVal o.b o.c
      let lo := (cnt.extractLsb' 0 16).toNat
      let hi := (cnt.extractLsb' 16 16).toNat
      let ok (most : Nat) : Prop := 1 ≤ cnt.toNat ∧ cnt.toNat ≤ most
      i = .xbmp h o true g ∧ form = 0 ∧ fmt = 0 ∧ ok 4096 ∨ i = .xrle h o true g ∧ form = 1 ∧ fmt = 6 ∧ ok 128 ∨
        i = .xcsr h o true g ∧ form = 2 ∧ fmt = 7 ∧ lo ≤ hi ∧ hi ≤ 128 ∨
        i = .xidx h o true g ty ∧ form = 3 ∧ fmt = ty ∧ ok (lanes ty) →
      (t.oq.strict = true ∨ 256 ≤ t.oq.jobs.length → exec i s = .next (s.raise 0x053)) ∧
      (t.oq.strict = false → t.oq.jobs.length < 256 →
        let src : SxSource := .slot g.toNat (d / 512) form fmt ((s.intVal o.a o.c).setWidth 32) cnt
        let waits := (consumed o.c).filter s.tokBusy
        let job : SxJob := { t0 := s.tc, w0 := s.wc, strict := false, waits := waits, src := src, started := false, finished := false }
        (d + 512 ≤ s.spBytes g.toNat → d % 512 = 0 →
          exec i s = .next (s.setTile b x { t with oq := { t.oq with jobs := t.oq.jobs ++ [job] } })) ∧
        (s.spBytes g.toNat < d + 512 → exec i s = .next (s.raise 0x081 (BitVec.ofNat 64 d))) ∧
        (d + 512 ≤ s.spBytes g.toNat → d % 512 ≠ 0 → exec i s = .next (s.raise 0x082 (BitVec.ofNat 64 d))))) ∧
  (∀ (h : Head) (o : Ops) (st : Bool) (s : State) (b x k : Nat), s.core = .tile b x k →
      let n := s.intVal o.d o.c
      (Runs (.xrate h o) s → exec (.xrate h o) s = if 1 ≤ n.toNat ∧ n.toNat ≤ 16 then .next (s.post 1 [.xrate (n.setWidth 5)])
        else .next (s.raise 0x004)) ∧
      (Runs (.xoff h o st) s → exec (.xoff h o st) s = if (s.tile b x).oq.jobs = [] then .next (s.post 1 [.xoff st])
        else .next (s.raise 0x053)) ∧
      (Runs (.xend h o) s → exec (.xend h o) s = .next (s.post 1 [.xend])) ∧
      (∀ d, o.d = .a d → Runs (.xcnt h o) s → exec (.xcnt h o) s = .next (s.post 1 [.xcnt k (s.strm.physA d)])))

/-- Accumulator tiles (07_accumulators R208, R210, R211, R220): MZERO writes its active rows as zero slots at the anchor at
issue + 2, and leaves the suppressed ones as they are; MANC moves the slots of its active rows to a new anchor at issue + 4; MLDB
loads one part of a plane at issue + 2, with ftz its subnormals as zeros (R206); MRD reads rows of a tile as a row at issue + 6, each
slot rounded once (04_numbers R119) or, as ACC96, as it stands. A row that MZERO keeps or MANC rewrites reads as ACC96, one of NONE
as zero slots at anchor 0; one of another tag raises 0x00D, a poisoned one 0x080, or reads as zeros where its page substitutes zeros
(R208; 06_vector_rows R166). That MZERO writes nothing to suppressed rows is the model's reading (log entry 9), that it reads them in
its issue tc its choice (log entry 77). -/
def Obligations.MatrixTile : Prop :=
  ∀ (h : Head) (o : Ops) (m : VMod) (s : State) (b x k : Nat), s.core = .tile b x k →
    let g := guardQ h s.strm
    let an := s.intVal o.a o.c
    let inRange : Prop := -32768 ≤ an.toInt ∧ an.toInt ≤ 32767
    let rows := (List.range 32).filter (fun j => g.getLsbD (16 * j))
    let kept := (List.range 32).filter (fun j => !g.getLsbD (16 * j))
    (∀ c, o.d = .acc c →
      let row (j : Nat) : Row := nth (s.tile b x).rows (32 * c.toNat + j) {}
      let other (j : Nat) : Prop := (row j).md.poison = false ∧ (row j).md.tag ≠ 0 ∧ (row j).md.tag ≠ 23
      let zeros (j : Nat) : Prop := (row j).md.poison = true ∧ (row j).md.zs = true
      let consumed (j : Nat) : Prop := (row j).md.poison = true ∧ (row j).md.zs = false
      let reads (i : Instr) (js : List Nat) (lands : List Nat → Prop) : Prop := Runs i s →
        (¬inRange → exec i s = .next (s.raise 0x004)) ∧
        (inRange → (∃ j ∈ js, other j) → exec i s = .next (s.raise 0x00D)) ∧
        (inRange → (∀ j ∈ js, ¬other j) → (∃ j ∈ js, consumed j) → exec i s = .next (s.raise 0x080)) ∧
        (inRange → (∀ j ∈ js, isAcc (row j) ∨ zeros j) → lands ((js.filter (fun j => (row j).md.poison)).map (fun _ => 12)))
      reads (.mzero h o) kept (fun ev => exec (.mzero h o) s = .next (s.post 2 (rows.map (fun j => .tileRow (32 * c.toNat + j)
          (mkRow 23 (List.replicate 32 0) 0 (an.setWidth 16)))) (tally ev))) ∧
      reads (.manc h o) rows (fun _ => ∃ evs, exec (.manc h o) s = .next (s.post 4 (rows.map (fun j =>
        let r : Row := if (row j).md.poison then {} else row j
        .tileRow (32 * c.toNat + j)
          (mkRow 23 ((accSlots r).map (fun e => (moveSlot (accAnchor r).toInt (an.setWidth 16).toInt e).1)) 0
            (an.setWidth 16)))) evs))) ∧
    (∀ n r p, o.d = .v n → HoldsRow s n r → r.md.tag = m.ty → o.a = .imm p →
      (s.tile b x).mxReads.count s.tc ≤ 1 → (s.tile b x).planeBusy (if m.x then 1 else 0) (s.tc + 2) = false →
      Runs (.mldb h o m) s →
      exec (.mldb h o m) s = .next ((s.useMxPorts [s.tc]).post 2
        [.planePart (if m.x then 1 else 0) p.toNat (mkRow m.ty ((rowElems r).map (flushElem m.ty m.ftz)) r.md.scales)] [])) ∧
    (∀ c (rs : Nat → Row), o.a = .acc c → Runs (.mrd h o m) s →
      (∀ i, i < lanes m.ty / 32 → nth (s.tile b x).rows (32 * c.toNat + (immVal o.b).toNat + i) {} = rs i ∧ isAcc (rs i)) →
      (1 ≤ m.ty.toNat → m.ty.toNat ≤ 13 → LandsLanes (.mrd h o m) h o s 6 m (m.rm == 4) m.ty (fun j =>
        (accOut m.ty m.rm.toNat m.ftz (s.srWord m.rm j) ((accSlots (rs (j / 32))).getD (j % 32) 0)
          (accAnchor (rs (j / 32))).toInt).1)) ∧
      (m.ty = 23 → LandsRow (.mrd h o m) o s 6 m (m.rm == 4) 23 (accSlots (rs 0)) 0 (accAnchor (rs 0)) g)) ∧
    (Runs (.mrd h o m) s → ∀ v, s.mrdOut o m g = .ok v →
      exec (.mrd h o m) s = .next ((s.vwrite 6 o.d m (stationOf s.strmNo) v).advanceDraw (m.rm == 4)))

/-- MMA, MMAS and MMAT occupy the array (07_accumulators R212 to R218): where it is free, no load of a used plane lands,
the row reads fit their ports and the operand's first rows can be read, the job is at work with those rows; MMAS takes
32 offsets. MWR and MACC read their source at issue (R221). An array at work raises 0x04B where nothing lower stands. A job of p
passes (none for MWR and MACC) reads its tile at issue + p + 5 and lands its result at issue + p + 6: each active slot gains the
32 products of its row and column, MMAT of its transposed row, MMAS, in either mode of the queue, of the columns its offsets name;
MWR and MACC put or add an element, of an ACC96 source with its special bits, to each active slot; a tile row of NONE is zero slots at
anchor 0 (R208). That an MMAS on two empty planes takes 2 passes is log entry 94. -/
def Obligations.MatrixArray : Prop :=
  (∀ (h : Head) (o : Ops) (m : VMod) (s : State) (b x k : Nat), s.core = .tile b x k →
    let t := s.tile b x
    let g := guardQ h s.strm
    let n := if m.x then 1 else 0
    let p := nth t.planes n {}
    let starts (i : Instr) (j : MxJob) (t' : Tile) (ns : List Nat) : Prop :=
      Runs i s → t.mx.any (fun q => q.occupies s.tc) = false → t.loadPending ns (s.tc + 1) (s.tc + j.passes - 1) = false →
      (∀ u ∈ portReads j.reads, (t.mxReads ++ portReads j.reads).count u ≤ 2) → aFits o.a m.ty j.passes = true →
      ∀ j', j.readNow t s.tc = .ok j' →
      exec i s = .next ((s.setTile b x { t' with mx := t.mx ++ [j'] }).useMxPorts (portReads j.reads))
    starts (.mma h o m) (s.mxJob o m g (.mma n) [p] (passesOf p.tag)) t [n] ∧
    starts (.mmat h o m) (s.mxJob o m g (.mmat n) [p] (passesOf p.tag)) t [n] ∧
    (t.popHazards 32 = [] → popsFreely s b x (guardTargetsQ h s) → ascending (t.popped 32) = true →
      ((nth t.planes 0 {}).tag = 0 ∨ (nth t.planes 1 {}).tag = 0 ∨ (nth t.planes 0 {}).tag = (nth t.planes 1 {}).tag) →
      starts (.mmas h o m) (s.mmasJob o m g) (t.pop 32) [0, 1]) ∧
    (t.mx.any (fun q => q.occupies s.tc) = true →
      let busy (i : Instr) (j : MxJob) : Prop := aFits o.a m.ty j.passes = true → ∀ j', j.readNow t s.tc = .ok j' →
        Runs i s → exec i s = .next (s.raise 0x04B)
      busy (.mma h o m) (s.mxJob o m g (.mma n) [p] (passesOf p.tag)) ∧
      busy (.mmat h o m) (s.mxJob o m g (.mmat n) [p] (passesOf p.tag)) ∧
      (popsFreely s b x (guardTargetsQ h s) →
        ((nth t.planes 0 {}).tag = 0 ∨ (nth t.planes 1 {}).tag = 0 ∨ (nth t.planes 0 {}).tag = (nth t.planes 1 {}).tag) →
        busy (.mmas h o m) (s.mmasJob o m g))) ∧
    (∀ r e, s.raw o.a = .ok (r, e) → (∃ a, s.opnd o.a o.c m.ty m.ftz = .ok a) →
      (∀ u ∈ issueReads s o.a, (t.mxReads ++ issueReads s o.a).count u ≤ 2) →
      let job (kind : MxKind) : MxJob := { s.mxJob o m g kind [] 0 with reads := [], got := [r], evs := tally e }
      (Runs (.mwr h o m) s → exec (.mwr h o m) s
        = .next ((s.setTile b x { t with mx := t.mx ++ [job (.mwr (immVal o.b).toNat)] }).useMxPorts (issueReads s o.a))) ∧
      (Runs (.macc h o m) s → exec (.macc h o m) s
        = .next ((s.setTile b x { t with mx := t.mx ++ [job (.macc (immVal o.b).toNat)] }).useMxPorts (issueReads s o.a))))) ∧
  (∀ (j : MxJob) (t : Tile) (x u : Nat),
    (u ≠ j.issued + j.passes + 5 → j.finish t x u = ([], [])) ∧
    (u = j.issued + j.passes + 5 →
      (∀ what ev, j.result t = .ok (what, ev) → ∃ r : Pend, j.finish t x u = ([r], []) ∧ r.due = j.issued + j.passes + 6 ∧
        r.issued = j.issued ∧ r.strm = 2 ∧ r.addr = j.addr ∧ r.evs = j.evs ++ tally ev ∧ r.what = what) ∧
      (∀ c, j.result t = .error c → j.finish t x u = ([], [{ cause := c, tile := x, strm := 2, addr := j.addr, ea := 0 }])))) ∧
  (∀ (j : MxJob) (t : Tile) (rs : Nat → Row) (p q : Plane),
    (∀ m, m < 32 → nth t.rows (32 * j.tile + m) {} = rs m ∧ isAcc (rs m)) →
    j.aValues.1.length = 1024 →
    let a (i : Nat) : Val := j.aValues.1.getD i .zero
    let col (p : Plane) (n k : Nat) : Val := (p.column j.ftz n).getD k .zero
    let slot (at_ : Nat → Nat → Nat) (b : Nat → Nat → Val) (m n : Nat) : Nat :=
      let old := (accSlots (rs m)).getD n 0
      if j.act.getLsbD (16 * n) then
        (List.range 32).foldl (fun c k => (accAdd c (mulV (a (at_ m k)) (b n k)).1 (accAnchor (rs m)).toInt).1) old
      else if j.z then 0 else old
    let gives (at_ : Nat → Nat → Nat) (b : Nat → Nat → Val) : Prop := ∃ ev, j.result t = .ok ((List.range 32).map (fun m =>
      .tileRow (32 * j.tile + m) (mkRow 23 ((List.range 32).map (slot at_ b m)) 0 (accAnchor (rs m)))), ev)
    (∀ n, j.kind = .mma n → j.planes = [p] → gives (fun m k => 32 * m + k) (col p)) ∧
    (∀ n, j.kind = .mmat n → j.planes = [p] → gives (fun m k => 32 * k + m) (col p)) ∧
    (∀ offs, j.kind = .mmas offs → j.planes = [p, q] → offs.length = 32 → (∀ k ∈ offs, k < 64) →
      gives (fun m k => 32 * m + k) (fun n k => if offs.getD k 0 < 32 then col p n (offs.getD k 0)
        else col q n (offs.getD k 0 - 32)))) ∧
  (∀ (j : MxJob) (t : Tile) (r : Row) (row0 : Nat) (mwr : Bool) (rs : Nat → Row),
    j.kind = (if mwr then .mwr row0 else .macc row0) → j.got = [r] → r.md.tag = j.f → 1 ≤ j.f.toNat → j.f.toNat ≤ 23 →
    (∀ m, m < lanes j.f / 32 → nth t.rows (32 * j.tile + (row0 + m)) {} = rs m ∧ isAcc (rs m)) →
    let slot (m n : Nat) : Nat :=
      let i := 32 * m + n
      let old := (accSlots (rs m)).getD n 0
      let at_ := (accAnchor (rs m)).toInt
      let e := (rowElems r).getD i 0
      let into := if mwr then 0 else old
      if j.act.getLsbD (i * 512 / lanes j.f) then
        if j.f = 23 then (accAdd (into % 2 ^ 104 + Nat.lor (into / 2 ^ 104 % 16) (e / 2 ^ 104 % 16) * 2 ^ 104)
          (.fin (accInt e < 0) (accInt e).natAbs (r.md.anchor.toInt - 64) false) at_).1
        else (accAdd into
          (decodeElem j.f j.ftz (if blockScaled j.f then scaleAt r.md.scales (i / 32) else 127) e) at_).1
      else if j.z then 0 else old
    ∃ ev, j.result t = .ok ((List.range (lanes j.f / 32)).map (fun m =>
      .tileRow (32 * j.tile + (row0 + m)) (mkRow 23 ((List.range 32).map (slot m)) 0 (accAnchor (rs m)))), ev))

/-- A product of one slot (07_accumulators R217; 04_numbers R118): with finite elements whose exact products lie on the
slot's units and within its range, the 104-bit integer gains exactly their sum, modulo 2^104, and no special bit
changes. -/
def Obligations.ExactAccumulation : Prop :=
  ∀ (c : Nat) (anchor : Int) (ps : List (Bool × Nat)), c < 2 ^ 108 →
    (∀ p ∈ ps, p.2 < 2 ^ 100) →
    let val (p : Bool × Nat) : Val := .fin p.1 p.2 (anchor - 64) false
    let sum : Int := (ps.map (fun p => if p.1 then -(p.2 : Int) else p.2)).sum
    let r := ps.foldl (fun c p => (accAdd c (val p) anchor).1) c
    r % 2 ^ 104 = (((c % 2 ^ 104 : Nat) + sum) % 2 ^ 104).toNat ∧ r / 2 ^ 104 = c / 2 ^ 104

/-- The exchange (10_queues R289, R290): XSND puts its row in the inbox of every named tile of the cluster, to arrive 8
tc later at itself and its ring neighbours and 12 later elsewhere; XRCV lands the oldest value of a channel at issue +
1, and raises 0x054 on an empty one. -/
def Obligations.ExchangeWords : Prop :=
  (∀ (h : Head) (o : Ops) (s : State) (b x k j : Nat) (n : BitVec 8) (r : Row), s.core = .tile b x k → b < 8 → x < 128 →
    j < 16 → o.d = .v n → HoldsRow s n r → Runs (.xsnd h o) s →
    let near := j = x % 16 ∨ j = (x % 16 + 1) % 16 ∨ x % 16 = (j + 1) % 16
    let lat := if near then 8 else 12
    let msg : XMsg := { tc := s.tc + lat, src := x % 16, srcTile := x, addr := s.addr, v := r }
    ∃ t, exec (.xsnd h o) s = .next t ∧ (t.tile b (x / 16 * 16 + j)).inbox
      = (s.tile b (x / 16 * 16 + j)).inbox ++ (if (s.uintVal o.a o.c).getLsbD j then [msg] else [])) ∧
  (∀ (h : Head) (o : Ops) (s : State) (b x k : Nat) (d : BitVec 8) (v : Row) (vs : List Row), s.core = .tile b x k →
    let n := (s.intVal o.a o.c).toNat
    o.d = .v d → n ≤ 15 → nth (s.tile b x).chans n [] = v :: vs → Runs (.xrcv h o) s →
    exec (.xrcv h o) s = .next ((s.setTile b x { s.tile b x with chans := put (s.tile b x).chans n vs }).post 1
      [.rowRaw (s.strm.physV d) v])) ∧
  (∀ (h : Head) (o : Ops) (s : State), Runs (.xrcv h o) s → (s.intVal o.a o.c).toNat ≤ 15 →
    s.chan (s.intVal o.a o.c).toNat = [] → exec (.xrcv h o) s = .next (s.raise 0x054)) ∧
  (∀ (h : Head) (o : Ops) (s : State), Runs (.xrcv h o) s → 15 < (s.intVal o.a o.c).toNat →
    exec (.xrcv h o) s = .next (s.raise 0x004))

/-! ## Steps -/

/-- The steps of a bay's time (02_execution R33, R36, R37; 01_device R16; 13_counters R351; 10_queues R289): WRITE_LANDING
lands the writes due and no other, LANE_VALUE_DROP takes values off their lane after 15 tc, EVENT_WINDOW_CLEAR clears
the counters whose window begins, EXCHANGE_ARRIVAL moves due
messages to their channels. A freeze begins before a tc of which a sample was false, for the conditions that failed; each wc of it
looks at them again and lets the bay resume 6 wc after all of them hold, or at once where one can never hold (13_counters R346: a
semaphore whose count, with every increment armed on it, falls short, a mutex that no token is armed to free; 10_queues R280: a pop
whose queue no decode job can fill, or after an XEND; 11_tables R298: a callee that cannot be staged); FREEZE_RELEASE
ends it there, and it does not begin again. That such a freeze ends at once, in the wc that finds it hopeless, and that a callee which
cannot be staged is found so, are the model's choice and reading (log entries 39 and 92). In a frozen bay only FREEZE_RELEASE happens. An addition of events saturates its counter and crosses the
threshold between; class 4 counts only while it is enabled; timed events that cross raise the steward's interrupt and the causes that
the actions ask for, and of a word that writes nothing later they count at issue, which has its effect only where none of them
traps (13_counters R350, R351); that they are there from that issue on is the model's choice (log entry 90). -/
def Obligations.TimetableSteps : Prop :=
  (∀ (t : Tile) (k n : Nat), k < 16 →
    let thr := (nth t.evthr k 0).toNat
    let old := (nth t.ev k 0).toNat
    let new := min (old + n) (2 ^ 32 - 1)
    let r := t.addEvent k n
    (∀ e, e < 16 → (nth r.1.ev e 0).toNat = if e = k then new else (nth t.ev e 0).toNat) ∧ { r.1 with ev := t.ev } = t ∧
      (r.2 = true ↔ thr ≠ 0 ∧ old ≤ thr ∧ thr < new)) ∧
  (∀ (t : Tile) (ien : Bool), t.addEvents ien [] = (t, []) ∧ ∀ k n evs,
    t.addEvents ien ((k, n) :: evs) = if k = 4 ∧ ien = false then t.addEvents ien evs
      else (((t.addEvent k n).1.addEvents ien evs).1,
        (if (t.addEvent k n).2 then [k] else []) ++ ((t.addEvent k n).1.addEvents ien evs).2)) ∧
  ∀ (s : State) (b : BitVec 3) (x : BitVec 7),
    let y := s.bay b.toNat
    let t := s.tile b.toNat x.toNat
    (∀ evs u cs, s.timedEvents b.toNat x.toNat evs = (u, cs) →
      let r := t.addEvents (y.evact.getLsbD 32) evs
      cs = (r.2.filter (fun k => y.evact.getLsbD (2 * k))).map (fun k => BitVec.ofNat 9 (0x0C0 + k)) ∧
        u.tile b.toNat x.toNat = r.1 ∧ u.mem = s.mem ∧ (∀ c, c ≠ b.toNat → u.bay c = s.bay c) ∧
        (u.steward b.toNat).pending = if ∃ k ∈ r.2, y.evact.getLsbD (2 * k + 1) = true
          then ((s.steward b.toNat).pendCause 0x145 false 0).pending else (s.steward b.toNat).pending) ∧
    (∀ k evs eff u cs, s.core = .tile b.toNat x.toNat k → s.timedEvents b.toNat x.toNat (tally evs) = (u, cs) →
      s.atIssue evs eff = if cs = [] then eff u else cs.foldl (fun s c => s.raise c) u) ∧
    (y.timed = true →
      ((∃ z, z < 128 ∧ ∃ r ∈ (y.tile z).pend, r.due ≤ y.tclk) → ∃ u, exec (.writeLanding b) s = .next u ∧ u.mem = s.mem ∧
        u.wc = s.wc ∧ (∀ c, c ≠ b.toNat → u.bay c = s.bay c) ∧
        ∀ z, z < 128 → (u.tile b.toNat z).pend = (y.tile z).pend.filter (fun r => y.tclk < r.due)) ∧
      ((∃ v ∈ t.lanes, v.tc + 15 < y.tclk) → exec (.laneValueDrop b x) s
        = .next (s.setTile b.toNat x.toNat { t with lanes := t.lanes.filter (fun v => y.tclk ≤ v.tc + 15) })) ∧
      (∃ u, exec (.eventWindowClear b) s = .next u ∧ ∀ z i, z < 128 → i < 16 →
        nth (u.tile b.toNat z).ev i 0 = if (nth (y.tile z).evwin i 0).toNat ≠ 0 ∧ y.tclk % (nth (y.tile z).evwin i 0).toNat = 0
          then 0 else nth (y.tile z).ev i 0) ∧
      (∀ m, t.inbox = [m] → m.tc ≤ y.tclk → exec (.exchangeArrival b x) s = .next (s.setTile b.toNat x.toNat { t with
        chans := put t.chans m.src (nth t.chans m.src [] ++ [m.v]), inbox := []
        arrived := t.arrived.filter (fun q => y.tclk ≤ q.tc + 4) ++ [m] }))) ∧
    (∀ f r, y.phase = .running → y.freeze = some f → f.resume = some r → r ≤ s.wc →
      exec (.freezeRelease b) s = .next (s.setBay b.toNat { y with freeze := none, released := some f })) ∧
    (∀ z, z = s.refreeze b.toNat →
      (y.freeze = none → (∀ g, y.released = some g → g.tc ≠ y.tclk) → s.waitsAt b.toNat y.tclk ≠ [] → ∃ g, z.freeze = some g ∧
        g.since = s.wc ∧ g.tc = y.tclk ∧ g.kinds = ((s.waitsAt b.toNat y.tclk).map (fun w => w.cond.counter)).dedup) ∧
      (y.freeze = none → s.waitsAt b.toNat y.tclk = [] ∨ (∃ g, y.released = some g ∧ g.tc = y.tclk) → z = y) ∧
      (∀ f, y.freeze = some f →
        let holds (w : Wait) : Prop := w.ok = true ∨ y.holds w.tile f.tc w.cond = true
        let never (w : Wait) : Prop := ¬holds w ∧ y.hopeless w.tile f.tc w.cond = true
        ∃ g, z.freeze = some g ∧ g.since = f.since ∧ g.tc = f.tc ∧ g.kinds = f.kinds ∧
          ((∃ w ∈ f.waits, never w) → g.resume = some s.wc) ∧
          (f.resume = none → (∀ w ∈ f.waits, holds w) → g.resume = some (s.wc + 6)) ∧
          (f.resume = none → (∀ w ∈ f.waits, ¬never w) → (∃ w ∈ f.waits, ¬holds w) → g.resume = none) ∧
          (∀ w, f.resume = some w → (∀ w ∈ f.waits, ¬never w) → g.resume = some w))) ∧
    (∀ (u z : Nat) (c : Word) (d : BitVec 32), let v := y.tile z
      let armed (n : Nat) : Nat := (v.toks.toList.map (fun k => match k.arm with
        | some (.sem m e) => if m = n then e.toNat else 0
        | _ => 0)).sum
      (∀ n : BitVec 4, let m := (nth v.sems n.toNat {}).count.toNat
        (y.hopeless z u (.sem n c) = true ↔ m + armed n.toNat < c.toNat) ∧
        (y.hopeless z u (.semw n d) = true ↔ m + armed n.toNat < d.toNat)) ∧
      (∀ m : BitVec 3, y.hopeless z u (.mtx m) = !(nth v.mtxs m.toNat {}).armed) ∧
      (∀ n, y.hopeless z u (.pop n) = true ↔ (∀ j ∈ v.oq.jobs, j.finished = true) ∨ (∃ w ∈ v.hist, u < w.1 ∧ w.2 = .xend) ∨
        ∃ r ∈ v.pend, r.due ≤ u ∧ .xend ∈ r.what) ∧
      (∀ fn, y.hopeless z u (.resident fn) = true ↔ ∃ e ∈ y.entering, e.due = u ∧ e.fn = fn ∧ e.fault ≠ none) ∧
      (∀ mask, y.hopeless z u (.tok mask) = false) ∧ (∀ j, y.hopeless z u (.bc j c) = false) ∧ y.hopeless z u .step = false ∧
      (∀ id, y.hopeless z u (.col id) = false)) ∧
    (∀ i, i = .writeLanding b ∨ i = .laneValueDrop b x ∨ i = .eventWindowClear b ∨ i = .exchangeArrival b x →
      y.freeze ≠ none → ∀ u, exec i s ≠ .next u)

/-- Requests and safe points (02_execution R44 to R46, R56, R57; 14_contexts R370): PREEMPTION_REQUEST, DEBUG_STOP and
RANK_SWITCH are latched with the tc they are due from, the last not for a rank parked at a step boundary that no other
assigned rank can replace; FILLER_SWITCH_IN takes a parked rank off after fillthr wc and keeps whom the filler displaces;
BAY_DRAIN closes the bay to further ranks; BAY_SELF_TEST returns an enabled bay to service or raises 0x14F, and loads new
tables into a drained one (01_device R21); MUSTER starts a staged rank, once the mirror holds its first snapshot, or over a link that is
up (14_contexts R368, R371), each stream with a body counting from tc 0. The tc from which a request counts is the model's reading (log entry 38); that
MUSTER itself writes the mirror's copy is its choice (log entry 46). -/
def Obligations.RequestSteps : Prop :=
  ∀ (s : State) (b : BitVec 3),
    let k := b.toNat
    let y := s.bay k
    let due : Nat := match s.turn with
      | .issue c _ => if c = k then y.tclk + 1 else y.tclk
      | .bayClose c => if c = k then y.tclk + 1 else y.tclk
      | _ => y.tclk
    let asks (r : Request) : State := s.setBay k { y with requests := y.requests ++ [(r, due)] }
    exec (.preemptionRequest b) s = .next (asks .preempt) ∧ exec (.debugStop b) s = .next (asks .debug) ∧
    (y.isParked = false ∨ y.arrived ≤ y.completed ∨ y.lost = true ∨ s.nextRank k ≠ none →
      exec (.rankSwitch b) s = .next (asks .switch)) ∧
    (∀ p, s.nextRank k = some p → p ∈ s.eligible k ∧ ∀ q ∈ s.eligible k,
      p.steps.toNat < q.steps.toNat ∨ (p.steps = q.steps ∧ p.rank.toNat ≤ q.rank.toNat)) ∧
    (∀ p ∈ s.eligible k, (∃ a ∈ y.assigned, a.filler = false ∧ a.job = p.job ∧ a.rank = p.rank) ∧
      s.bayOf p.job p.rank = none ∧ ∀ q, s.parkedOf p.job p.rank = some q → q.held = false ∧ q.done = false) ∧
    (∀ f, y.phase = .running → y.freeze = some f → y.isParked = true → f.kinds.contains 25 = true → y.filler = false →
      y.fillthr.toNat < s.wc - f.since →
      ∃ u, exec (.fillerSwitchIn b) s = .next u ∧ (u.bay k).phase = .taken .switch ∧
        (u.bay k).displaced = some (y.job, y.rankid, y.awaited)) ∧
    (∃ u, exec (.bayDrain b) s = .next u ∧ (u.bay k).drained = true ∧
      (u.bay k).requests = y.requests ++ (if y.engaged then [(.drain, due)] else [])) ∧
    (∀ t : SelfTest, s.phase = .service → y.free = true → s.settings.enabled.getLsbD k = true →
      t.tables = none ∨ y.drained = true →
      let z : Bay := { y with tables := t.tables.getD y.tables }
      exec (.baySelfTest b t) s = if t.pass
        then .next (s.setBay k { z with service := true, drained := false })
        else .next ((s.setBay k { z with service := false }).notify 8 0x14F)) ∧
    (y.phase = .staged → y.entryFault = false → y.resume = false →
      s.linkUp s.mirrorPort = true ∨ (∀ z, s.snapshotOf y.job y.rankid = some z → z.mirrored = true) → ∃ u, exec (.muster b) s = .next u ∧
      (u.bay k).phase = .running ∧ (u.bay k).wclk = 0 ∧ (u.bay k).frzc = 0 ∧ (∀ c, c ≠ k → u.bay c = s.bay c) ∧
      (∀ z, u.snapshotOf y.job y.rankid = some z → z.mirrored = true) ∧
      ∀ x, x < 128 → ∀ j, j < 9 → ((u.tile k x).strm j).next = if (y.body x y.entry j).isSome then .word y.entry 0 0 else .halted)

/-- The life of a rank (02_execution R26 to R31, R51; 13_counters R343; 14_contexts R355 to R366, R372; 19_boundaries R396): a
bad launch record is refused with cause 0x148 and nothing else changed, a good one accepted with the launch state, or at the
tc after the safe point of the context it restores; RANK_END ends it and sends 0x147; CONTEXT_SAVE leaves the bay, off a step
boundary or with its image saved; STEP_IMAGE_SAVE writes the image to the snapshot and then to its mirror, or meets a soft
error; a barrier completes once every rank has arrived and the images are saved, and changes the milestone 5,000 ns after the
switch's stamp, or at once when that is past or fabric time is not aligned, which counts event 45; the milestone rises by one, and
the event and barrier counters are cleared (13_counters R348, R350). The tiles' own numbers are there from the post on (11_tables
R294; 05_control_registers Table 5). That a posted record
waits for a free bay, and for the rank that its steward has chosen, that RANK_END waits for landed writes, that the image goes to
the mirror in a step of its own, what a restored context and its ptbase must be, and on which bays event 45 counts, are the model's
readings (log entries 42, 44, 46, 65, 71, 86 and 88). -/
def Obligations.RankLifeSteps : Prop :=
  ∀ (s : State) (b : BitVec 3),
    let k := b.toNat
    let y := s.bay k
    let landed : Prop := ∀ x, x < 128 → (y.tile x).pend = [] ∧ (y.tile x).mx = []
    (y.post = 1 → y.service = true → y.drained = false → y.free = true → s.mayPost k y.record = true →
      let bad := (s.withIco k y.record.ico).refuses k y.record
      (bad = true ∨ (y.record.resume = true ∧ s.refusesRestore y.record = true) → exec (.launchRecordPost b) s
        = .next ((s.setBay k { y with post := 3 }).notify k 0x148)) ∧
      (bad = false → y.record.resume = true → s.refusesRestore y.record = false → ∃ u, exec (.launchRecordPost b) s = .next u ∧
        u.mem = s.mem ∧ (u.bay k).phase = .staged ∧ (u.bay k).resume = true ∧
        (u.bay k).tclk = (s.homeLe (y.record.save.toNat + 0x18) 8).1 + 1) ∧
      (bad = false → y.record.resume = false →
        ∃ u, exec (.launchRecordPost b) s = .next u ∧ u.mem = s.mem ∧ (u.bay k).post = 2 ∧ (u.bay k).phase = .staged ∧
          (u.bay k).tclk = 0 ∧ (u.bay k).rankid = BitVec.ofNat 20 y.record.rank ∧ (u.bay k).detm = y.record.detm ∧
          (∀ x j n, x < 128 → j < 9 → ((u.tile k x).strm j).readA n = 0 ∧ ((u.tile k x).strm j).readB (n.setWidth 3) = 0 ∧
            ((u.tile k x).strm j).readP (n.setWidth 4) = (n.setWidth 4 == 0#4) ∧ ((u.tile k x).strm j).lcnt = 0) ∧
          (∀ x, x < 128 → (u.tile k x).cmds = [] ∧ (u.tile k x).pend = [] ∧ (u.tile k x).slots = []) ∧
          (∀ x, x < 128 → (u.tile k x).lidx = BitVec.ofNat 7 ((u.bay k).lidxOf x) ∧ (u.tile k x).clid = BitVec.ofNat 3 (x / 16) ∧
            (u.tile k x).tid = BitVec.ofNat 4 x ∧ (u.tile k x).stage = BitVec.ofNat 3 ((u.bay k).stageOf x)) ∧
          (u.snapshotOf y.record.job (BitVec.ofNat 20 y.record.rank)).isSome = true)) ∧
    (y.phase = .running → landed → y.tokensDone = true → (∀ x j, x < 128 → j < 9 → ((y.tile x).strm j).next = .halted) →
      ∃ u, exec (.rankEnd b) s = .next u ∧ (u.bay k).phase = .ended ∧ (u.bay k).ep = y.ep ∧
        (u.steward k).pending = ((s.steward k).pendCause 0x147 false 0).pending) ∧
    (∀ r, y.phase = .taken r → r ≠ .debug → y.tokensDone = true → y.recordsGone = true → s.roomFor y.save.toNat = true →
      y.imaged = true ∨ y.lost = true ∨ y.arrived ≤ y.completed → ∃ u, exec (.contextSave b) s = .next u ∧
        (u.bay k).phase = .saved r ∧ ∃ p, u.parkedOf y.job y.rankid = some p ∧ p.live = false ∧ p.save = y.save) ∧
    (y.completed < y.arrived → y.isParked = true ∨ y.phase = .taken .switch → y.tokensDone = true → y.collsDone = true →
      y.recordsGone = true → y.imaged = false → y.lost = false →
      (s.imageWritten y.job y.rankid = true → s.linkUp s.mirrorPort = true) → ∃ u, exec (.stepImageSave b) s = .next u ∧
        (s.imageWritten y.job y.rankid = true → (u.bay k).imaged = true ∧
          ∀ j ∈ u.jobs, j.id = y.job → y.rankid ∈ j.imaged) ∧
        (s.imageWritten y.job y.rankid = false → ((s.settleBay k).bay k).softError = false →
          u.imageWritten y.job y.rankid = true ∧ (u.bay k).imaged = false) ∧
        (s.imageWritten y.job y.rankid = false → ((s.settleBay k).bay k).softError = true → (u.bay k).lost = true ∧
          u.snapshots = (s.settleBay k |>.homeWrite (y.save.toNat + 2) [0]).snapshots)) ∧
    (∀ (c : Completion) (j : Job), s.jobs = [j] → j.id = c.job → j.change = none → j.arrived ≠ [] →
      s.allArrived j = true → j.arrived.length + c.others = j.v → (∀ r ∈ j.arrived, r ∈ j.imaged) →
      c.others = 0 ∨ s.linkUp c.port = true →
      let late := c.stamp.toNat + 5000 < s.ftime.toNat ∨ s.power.aligned = false
      ∃ u, exec (.stepBarrierComplete c) s = .next u ∧
        (¬late → u = { s with jobs := [{ j with change := some (c.stamp.toNat + 5000) }] }) ∧
        (late → u.jobs = [{ j with change := some s.ftime.toNat }] ∧
          ∀ i, i < 8 → (s.bay i).seated = true → (s.bay i).job = c.job → u.bay i = (s.bay i).count 45)) ∧
    (∀ (job : Word) (j : Job) (c : Nat), s.jobs = [j] → j.id = job → j.change = some c → c ≤ s.ftime.toNat →
      ∃ u, exec (.milestoneChange job) s = .next u ∧
        u.jobs = [{ j with milestone := j.milestone + 1, arrived := [], imaged := [], change := none }] ∧
        ∀ i, i < 8 → (s.bay i).job = job → (s.bay i).occupied = true → (u.bay i).completed = (s.bay i).completed + 1 ∧
          (u.bay i).ep = {} ∧ (∀ x e, x < 128 → e < 16 → nth (u.tile i x).ev e 0 = 0) ∧
          ∀ cl n, cl < 8 → n < 16 → nth ((u.bay i).cluster cl).bc n 0 = 0)

/-- A word of a rank that raises a cause has one effect: the bay's list of the tc's traps is longer by that trap, with
its cause, tile, stream, code address and effective address (00_scope R10; 15_traps R376). A landing that raises a trap of its own
writes nothing and counts nothing; one whose events cross a threshold that traps writes nothing, and they count (13_counters R351);
any other writes, and its events count. What the word of such a landing has changed before, its stream's draw counter, popped offset
queue entries, the value of a channel, a slot's fresh mark, is noted at its issue while its results are in flight, and taken back. Any trap stops the bay at the
close of its tc (02_execution R48, R49; 15_traps R376): the phase is trapped, no other tc begins with it, the words that
trapped write nothing, and the primary trap is the lowest cause, then tile, then stream; TRAP_REPORT writes its record
at the bay steward's tvbase + 0xC40 and makes it pending there. That a collision is raised by the later word at its issue, and
what a landing that traps still counts and lands (a gateway fill put off behind its write) and takes back, are the model's readings
(log entries 28 and 61). -/
def Obligations.TrapsStopTheBay : Prop :=
  (∀ (s : State) (b x k : Nat) (c : Cause) (ea : Word), OnTile s b x k →
      ∃ y, s.raise c ea = s.setBay b y ∧
        y = { s.bay b with traps := (s.bay b).traps ++ [{ cause := c, tile := x, strm := k, addr := s.addr, ea := ea }] }) ∧
  ((∀ (s : State) (b : Nat), b < 8 → (s.bay b).traps ≠ [] →
      let u := s.closeTc b
      (u.bay b).phase = .trapped ∧ (u.bay b).trapTc = (s.bay b).tclk ∧ (∀ r ∈ (s.bay b).traps, r ∈ (u.bay b).traps) ∧
        (∀ c, c ≠ b → u.bay c = s.bay c) ∧ u.mem = s.mem) ∧
    (∀ (s t : State) (b x k : Nat) (c : Cause), s.core = .tile b x k →
      (t.tile b x).issueTrap s.tc k s.addr = some c → s.settle t = s.raise c) ∧
    (∀ (s t : State) (b x k : Nat), OnTile s b x k →
      ((t.tile b x).issueTrap s.tc k s.addr = none → s.settle t = s.note t) ∧ (s.note t).setTile b x (t.tile b x) = t ∧
      ((t.tile b x).inFlight k s.tc s.addr = true → ((t.tile b x).strm k).draw ≠ ((s.tile b x).strm k).draw →
        { strm := k, issued := s.tc, addr := s.addr, what := .draw } ∈ ((s.note t).tile b x).early)) ∧
    (∀ (t : Tile) (k u : Nat) (a : Word),
      ((∀ e ∈ t.early, e.by_ k u a = false) → t.takeBack k u a = t) ∧
      ∀ e, t.early.filter (fun e => e.by_ k u a) = [e] → let v := t.takeBack k u a
        v.early = t.early.filter (fun e => !e.by_ k u a) ∧
        (e.what = .draw → k < 9 → (v.strm k).draw = (t.strm k).draw - 1) ∧
        (∀ es, e.what = .pops es → v.oq.entries = es ++ t.oq.entries ∧ v.oq.pops = t.oq.pops - BitVec.ofNat 32 es.length) ∧
        (∀ n w, e.what = .chan n w → n < 16 → nth v.chans n [] = w :: nth t.chans n []) ∧
        (∀ g n, e.what = .fresh g n → (v.slot g n).fresh = true)) ∧
    (∀ (y : Bay) (u x : Nat) (w : Landed) (r : Pend), (w.t.applyAll u r.what).2.1 ≠ [] →
      let v := Landed.add y u x w r
      v.t.strms = w.t.strms ∧ v.t.rows = w.t.rows ∧ v.t.planes = w.t.planes ∧
        v.t.slots = (w.t.applyAll u (r.what.filter Land.isFill)).1.slots ∧ v.t.sems = w.t.sems ∧
        v.t.mtxs = w.t.mtxs ∧ v.t.toks = w.t.toks ∧ v.t.lanes = w.t.lanes ∧ v.t.oq = w.t.oq ∧
        v.t.ev = w.t.ev ∧ ∃ q ∈ v.traps, q.tile = x ∧ q.strm = r.strm ∧ q.addr = r.addr) ∧
    (∀ (y : Bay) (u x : Nat) (w : Landed) (r : Pend), (w.t.applyAll u r.what).2.1 = [] →
      let es := r.evs ++ tally (w.t.applyAll u r.what).2.2
      let done := (w.t.applyAll u r.what).1.addEvents (y.evact.getLsbD 32) es
      let traps (k : Nat) : Prop := k ∈ done.2 ∧ y.evact.getLsbD (2 * k) = true ∧ y.phase ≠ .trapped
      let v := Landed.add y u x w r
      (∀ k, traps k → { v.t with hist := [] } = { ((w.t.applyAll u (r.what.filter Land.isFill)).1.addEvents
          (y.evact.getLsbD 32) es).1 with hist := [] } ∧
        r.trap x (BitVec.ofNat 9 (0x0C0 + k)) ∈ v.traps) ∧
      ((∀ k, ¬traps k) → { v.t with hist := [] } = { done.1 with hist := [] } ∧ v.traps = w.traps)) ∧
    (∀ (rs : List TrapRec) (r : TrapRec), primary rs = some r → r ∈ rs ∧ ∀ q ∈ rs,
      r.cause.toNat < q.cause.toNat ∨ (r.cause = q.cause ∧ (r.tile < q.tile ∨ (r.tile = q.tile ∧ r.strm ≤ q.strm)))) ∧
    (∀ rs : List TrapRec, primary rs = none → rs = []) ∧
    (∀ (s : State) (b : BitVec 3),
      let k := b.toNat
      let y := s.bay k
      let landed : Prop := ∀ x, x < 128 → (y.tile x).pend = [] ∧ (y.tile x).mx = []
      (∀ r, y.phase = .trapped → landed → y.tokensDone = true → primary y.traps = some r →
        ∃ u, exec (.trapReport b) s = .next u ∧ (u.bay k).traps = [] ∧
          (u.steward k).pending = ((s.steward k).pendCause r.cause true k).pending ∧
          (memWf (s.steward k).ram = true → ∀ i, i < 64 →
            readByte (u.steward k).ram ((s.steward k).tvbase.toNat + 0xC40 + i) = (s.trapBytes k r).getD i 0) ∧
          r ∈ y.traps ∧ ∀ q ∈ y.traps, r.cause.toNat ≤ q.cause.toNat)))

/-- Taking an exception on a steward core (15_traps R378 to R380): in tc u + 1 ecause, epc and estat hold the cause, the
word to resume and the stacked enable, and the handler's first word counts from u + 5; a cause raised while a trap is
active stops a bay steward, and 0x14E goes to the device steward, which itself is loaded anew from its other firmware slot, or stops
where that holds no image that verifies. A steward core's words take it for their precise causes. That the device steward's reload is
as at boot (its first word in the next tc, its predicates at their defaults, estat 0, what was pending kept) and that it stops without a
verified image are the model's readings (log entry 58). -/
def Obligations.StewardExceptionEntry : Prop :=
  (∀ (w : Steward) (c : Cause) (async rank : Bool) (epc : Nat),
    let v := w.deliver c async rank epc
    let e := readLe w.ram (w.tvbase.toNat + 8 * c.toNat) 8
    let target := (if 2 ^ 63 ≤ e then e else readLe w.ram (w.tvbase.toNat + 8 * 384) 8) % 2 ^ 48
    v.strm.next = .word 0 target (w.tc + 5) ∧ v.strm.xfer = none ∧ v.strm.a = w.strm.a ∧ v.strm.b = w.strm.b ∧
      v.strm.p = w.strm.p ∧ v.ram = w.ram ∧ v.pending = w.pending ∧ v.tvbase = w.tvbase ∧
      ∃ r, v.pend = w.pend ++ [r] ∧ r.due = w.tc + 1 ∧
        r.what = [.cr 0 0x41 ((BitVec.ofNat 18 (c.toNat + (if async then 65536 else 0) + (if rank then 131072 else 0))).setWidth 64),
          .cr 0 0x42 (BitVec.ofNat 64 epc), .cr 0 0x43 (if w.estat.getLsbD 0 then 6 else 4)]) ∧
  (∀ (s : State) (k : Nat) (c : Cause) (ea : Word), s.core = .steward k → k < 9 → (s.steward k).estat.getLsbD 2 = false →
    s.raise c ea = s.setSteward k ((s.steward k).deliver c false false (s.steward k).strm.cur.2)) ∧
  (∀ (s : State) (k : Nat) (c : Cause) (ea : Word), s.core = .steward k → k < 8 → (s.steward k).estat.getLsbD 2 = true →
    let u := s.raise c ea
    (u.steward k).running = false ∧ (u.steward k).strm.next = .halted ∧
      (u.steward 8).pending = ((s.steward 8).pendCause 0x14E false 0).pending) ∧
  (∀ (s : State) (c : Cause) (ea : Word), s.core = .steward 8 → (s.steward 8).estat.getLsbD 2 = true →
    let w := s.steward 8
    let other (f : FlashImage) : Prop := f.kind = 2 ∧ f.die = 4 ∧ f.slotB ≠ w.slotB ∧ f.verifies = true
    let v := (s.raise c ea).steward 8
    (∀ f, s.flash.find? (fun f => f.kind == 2#8 && f.die == 4#8 && f.slotB != w.slotB && f.verifies) = some f → other f ∧
      v.running = true ∧ v.slotB = f.slotB ∧ v.strm.next = .word 0 0 (w.tc + 1) ∧ v.strm.p = ({} : Strm).p ∧ v.estat = 0 ∧
      v.pending = w.pending ∧ v.ram = writeBytes [] 0 (f.body.take 0x80000)) ∧
    ((∀ f ∈ s.flash, ¬other f) → v.running = false ∧ v.strm.next = .halted ∧ v.ram = w.ram))

/-- The steps of a steward core (15_traps R379, R382, R383; 05_control_registers R162; 08_memories R225, R226;
19_boundaries R393, R398): the lowest pending cause is taken at an interruptible word; a pop removes the oldest record, one
that was appended in the same wc apart; a carve value, at once on a bay that no rank runs on, starg and pwrctl are accepted within their ranges and raise 0x004 outside; the doorbell keeps its last
value and raises 0x14A. That a carve value is read as the old one until it takes effect is the model's choice (log entry 107). -/
def Obligations.StewardSteps : Prop :=
  ∀ (s : State),
    (∀ (k : BitVec 4) d off, s.takeable k.toNat = some (d, off) →
      (exec (.asyncDelivery k) s = .next (s.setSteward k.toNat (({ s.steward k.toNat with
        pending := (s.steward k.toNat).pending.filter (fun e => e != d) } : Steward).deliver d.cause true d.rank off))) ∧
      (∀ e ∈ s.pendingAt k.toNat, d.cause.toNat ≤ e.cause.toNat) ∧ (s.steward k.toNat).estat.getLsbD 0 = true ∧
      (s.steward k.toNat).pend = []) ∧
    (∀ q : BitVec 6, let b := q.toNat / 8
      let c := (s.bay b).cluster (q.toNat % 8)
      exec (.faultWindowPop q) s = .next (s.setBay b ((s.bay b).setCluster (q.toNat % 8) { c with
        faults := if c.fresh.1 = s.wc ∧ c.faults.length ≤ c.fresh.2 then c.faults else c.faults.drop 1 }))) ∧
    (∀ b : BitVec 3, let y := s.bay b.toNat
      exec (.requestWindowPop b) s = .next (s.setBay b.toNat { y with
        sysq := if y.sysFresh.1 = s.wc ∧ y.sysq.length ≤ y.sysFresh.2 then y.sysq else y.sysq.drop 1 })) ∧
    (∀ (b cl : BitVec 3) (v : Word), badCarve v = false → ∃ u, exec (.carveWrite b cl v) s = .next u ∧
      let c := (u.bay b.toNat).cluster cl.toNat
      if (s.bay b.toNat).occupied then c.carveNext = some v ∧ c.carve = ((s.bay b.toNat).cluster cl.toNat).carve
      else c.carveNext = none ∧ c.carve = v) ∧
    (∀ (b cl : BitVec 3) (v : Word), badCarve v = true → exec (.carveWrite b cl v) s = .next (s.stewardTrap b.toNat 0x004)) ∧
    (∀ b : BitVec 3, (s.bay b.toNat).occupied = false ∨ (s.bay b.toNat).isParked = true ∨ (∃ r, (s.bay b.toNat).phase = .taken r) → ∃ u,
      exec (.carveTakesEffect b) s = .next u ∧ ∀ c, c < 8 → ((u.bay b.toNat).cluster c).carveNext = none ∧
        ((u.bay b.toNat).cluster c).carve
          = (((s.bay b.toNat).cluster c).carveNext).getD ((s.bay b.toNat).cluster c).carve) ∧
    (∀ (k : BitVec 4) (v : Word), exec (.stargWrite k v) s = if (v.extractLsb' 10 4).toNat ≤ 8
      then .next (s.setSteward k.toNat { s.steward k.toNat with starg := v.extractLsb' 0 18 })
      else .next (s.stewardTrap k.toNat 0x004)) ∧
    (∀ v : Word, exec (.pwrctlWrite 0 v) s =
      if 5 ≤ v.toNat % 2 ^ 11 ∧ v.toNat % 2 ^ 11 ≤ 2000 ∧ 1000 ≤ v.toNat / 2 ^ 24 % 2 ^ 12 ∧ v.toNat / 2 ^ 24 % 2 ^ 12 ≤ 4000
      then .next { s with power := { s.power with
        slew := v.extractLsb' 0 11, ben := v.getLsbD 11, floor := v.extractLsb' 12 12, cap := v.extractLsb' 24 12 } }
      else .next (s.stewardTrap 8 0x004)) ∧
    (∀ v : Word, exec (.doorbell v) s = .next (({ s with doorbell := v } : State).notify 8 0x14A))

/-- The steps of a gateway command (08_memories R244, R247, R249, R409; 09_ordering R261 to R265; 10_queues R285; 11_tables
R309 to R315; 12_endpoints R321; 13_counters R344, R348): a command starts once its tokens are complete, and then GPF stages
its lines in the die cache and, at level 2, in the line cache, GWB writes the dirty lines of its range back to their home die cache and
keeps them, clean, GINV drops them, a store writes its image line by line from a row or a slot, GCPY copies what it has read, an
atomic replaces its element at home, GLEV writes the rounded sum of a point or, its descriptor refused, queues record 0x095, ACQ
drops its regions' lines, REL stores its sync word at home after the write-backs of its scope, FENCE leaves its tile without
lines and, at device scope, the die caches without CXL lines; a fill brings its image to the row or slot and counts 512 bytes;
a completing token counts the events of its command, where a crossing queues 0x0D0 + e, and fires its arm; a contributed byte
reaches its collective, or queues 0x101, or 0x102 where its byte is there already, and sets flt. The images of a store, with their
scale bytes, and the lines of a copy, its source read whole first, are pieces of memory lines, of which the higher image prevails
byte by byte; an atomic takes its elements in order. The model's choices
and readings here: how many translations a command gives to performance events 36 and 37 is a free value (log entry 18); the
0x095 record holds the descriptor's address (7); REL and ACQ publish the lines of their regions (68); sums of addresses are modulo 2^64 (99);
GWB writes back the line cache alone (100); event 12 counts for each point that uses a zero (101); flt is set also where the fault queue
is full and the record is lost (81); at a REL's sync word C = 1 means nothing (95). -/
def Obligations.GatewaySteps : Prop :=
  (∀ (s : State) (b : BitVec 3) (x : BitVec 7) (k : BitVec 6) (c : Cmd),
    let y := s.bay b.toNat
    let t := s.tile b.toNat x.toNat
    t.cmds = [c] → c.k = k.toNat →
    let run : Run := { s := s, b := b.toNat, x := x.toNat, c := { c with started := true } }
    let done (r : Run) : Host.Outcome State Fault Refusal :=
      .next (if c.what.translates then r.close.countWalks b.toNat else r.close)
    let go (u : State) : Host.Outcome State Fault Refusal := done { run with s := u }
    let wr (a : Nat) (bs : List Byte) (u : State) : State := (u.vaWritePiece b.toNat x.toNat a bs).1
    let ok (a : Nat) (bs : List Byte) (u : State) : Prop := (u.vaWritePiece b.toNat x.toNat a bs).2 = none ∧
      ∀ p, s.walk b.toNat a = .ok p → p.c = false ∧ p.w = true
    (c.started = false → c.waits = [] →
      (∀ ga nb lv, c.what = .prefetch ga nb lv → exec (.gatewayCommandStart b x k) s
        = go (s.prefetch b.toNat x.toNat ga.toNat nb lv)) ∧
      (∀ dst ga q f, c.what = .fill dst ga q f → exec (.gatewayCommandStart b x k) s = go s) ∧
      (∀ ga nb, c.what = .writeBack ga nb → exec (.gatewayCommandStart b x k) s
        = go (s.writeBackRange b.toNat x.toNat ga.toNat nb)) ∧
      (∀ ga nb, c.what = .invalidate ga nb → exec (.gatewayCommandStart b x k) s
        = go (s.invalidate b.toNat x.toNat ga.toNat nb)) ∧
      (∀ src (va : Word) f v, c.what = .store src [va] f → (∀ n r, src = .row n r → v = r) →
        (∀ g n, src = .slots g n → (t.slot g n).bad = false ∧ v = (t.slot g n).row) → v.md.poison = false → blockScaled f = false →
        va.toNat % 128 = 0 →
        let a := va.toNat
        let line (i : Nat) : List Byte := leBytes 128 (v.data.toNat / 2 ^ (1024 * i))
        let s₁ := wr a (line 0) s
        let s₂ := wr (a + 128) (line 1) s₁
        let s₃ := wr (a + 256) (line 2) s₂
        (∀ i, i < 4 → ∃ p, s.walk b.toNat (a + 128 * i) = .ok p) →
        ok a (line 0) s → ok (a + 128) (line 1) s₁ → ok (a + 256) (line 2) s₂ → ok (a + 384) (line 3) s₃ →
        exec (.gatewayCommandStart b x k) s = go (wr (a + 384) (line 3) s₃)) ∧
      (∀ gd gs nb bs s₁ p, c.what = .copy gd gs nb → 1 ≤ nb → gs.toNat % 128 + nb ≤ 128 → gd.toNat % 128 + nb ≤ 128 →
        s.imageRead b.toNat x.toNat gs.toNat nb = (bs, s₁, none) → s₁.walk b.toNat gd.toNat = .ok p → p.c = false →
        p.w = true → (s₁.vaWritePiece b.toNat x.toNat gd.toNat bs).2 = none →
        exec (.gatewayCommandStart b x k) s = go (wr gd.toNat bs s₁)) ∧
      (∀ n v (ga : Word) (op fmt : BitVec 4) p, c.what = .atomic (.row n v) ga 1 op fmt false → v.md.poison = false →
        op.toNat < 9 → s.walk b.toNat ga.toNat = .ok p → p.c = false → p.w = true →
        let s₁ := (s.clearCopies b.toNat x.toNat (p.loc / 128)).countHome b.toNat (p.loc / 128)
        (s₁.homeLine (p.loc / 128)).bad = false →
        let f := (atomFormat fmt.toNat).1
        let size := (atomFormat fmt.toNat).2
        let z := atomOp op.toNat (8 * size) (s₁.homeLe p.loc size).1 (v.data.toNat % 2 ^ (8 * size)) 0
        1 ≤ lanes f → exec (.gatewayCommandStart b x k) s
          = done (({ run with s := s₁.homeWrite p.loc (leBytes size z.1) } : Run).event z.2)) ∧
      (∀ src ga f vs, c.what = .store src ga f → vs.length = ga.length → (∀ v ∈ vs, v.md.poison = false) →
        (∀ n v, src = .row n v → vs = [v]) →
        (∀ g n, src = .slots g n → vs = (List.range ga.length).map (fun j => run.slotSource g (n + j))) →
        let bytes (j : Nat) : List Byte := leBytes 512 (vs.getD j {}).data.toNat
          ++ (if blockScaled f then leBytes 32 (vs.getD j {}).md.scales.toNat else [])
        let pieces (j : Nat) : List (Nat × List Byte) := vaPieces (ga.getD j 0).toNat (bytes j)
        (∀ j, j < ga.length → ∀ p ∈ pieces j, ∃ pg, s.walk b.toNat p.1 = .ok pg ∧ pg.w = true ∧ pg.c = false) →
        exec (.gatewayCommandStart b x k) s = done ({ run with out := (List.range ga.length).flatMap (fun j =>
          (pieces j).map (fun p => { index := j, va := p.1, bytes := p.2 })) } : Run).flush) ∧
      (∀ gd gs nb, c.what = .copy gd gs nb → let q := run.copySource 0 (spansOf gs.toNat nb)
        exec (.gatewayCommandStart b x k) s = done (q.1.copyLines 0 q.2 (spansOf gd.toNat nb)).flush) ∧
      (∀ n v (ga : Word) (num : Nat) (op fmt : BitVec 4) ret, c.what = .atomic (.row n v) ga num op fmt ret → v.md.poison = false →
        let f := (atomFormat fmt.toNat).1
        let size := (atomFormat fmt.toNat).2
        let els := elems (8 * size) (lanes f) v.data.toNat
        let q := run.atomAll (if ret then 0x8000 + n else 0xFFFF) ga.toNat op.toNat size none 0
          ((if op = 9 then pairsOf els else els.map (fun e => (e, 0))).take num)
        let old : Row := mkRow f (q.2 ++ List.replicate (lanes f - q.2.length) 0)
        exec (.gatewayCommandStart b x k) s = done (if ret then { q.1 with s := q.1.s.fillDest b.toNat x.toNat (.row n v) 0 old 0 }
          else q.1)) ∧
      (∀ ad aw draw r₁, c.what = .grid ad aw draw → run.readGrid ad.toNat aw.toNat = (r₁, none) →
        (y.cluster (x.toNat / 16)).faults.length < 256 → ∃ u, exec (.gatewayCommandStart b x k) s = .next u ∧ u.mem = r₁.s.mem ∧
        ∃ rec : BitVec 256, rec.extractLsb' 128 9 = 0x095#9 ∧ rec.extractLsb' 64 64 = ad ∧
          ((u.bay b.toNat).cluster (x.toNat / 16)).faults = (y.cluster (x.toNat / 16)).faults ++ [rec]) ∧
      (∀ ad aw draw r₁ r₂ g w p v z₀, c.what = .grid ad aw draw → run.readGrid ad.toNat aw.toNat = (r₁, some g) →
        g.dstExt = (1, 1, 1) → g.acc = false → blockScaled g.df = false → g.stencil (0, 0, 0) = [(w, p)] →
        r₁.gridElem g.sf g.src g.ss p 0 = (r₂, some (v, z₀)) →
        let r₃ := if z₀ then r₂.event [12] else r₂
        let a := (elemAt g.df g.dst g.ds (0, 0, 0)).1
        r₃.destCause a = none →
        let z := finish g.df g.rm false (r₃.glevWord draw 0) (gridSum g.rm [(w, v)])
        exec (.gatewayCommandStart b x k) s = done (((r₃.event z.2).place 0 a (leBytes (elemWidth g.df / 8) z.1)).flush)) ∧
      (∀ scope sa regions, c.what = .acq scope sa regions → ∃ u, exec (.gatewayCommandStart b x k) s = .next u ∧
        (scope.toNat < 2 → go s = .next u) ∧
        (2 ≤ scope.toNat → ∀ no ∈ s.regionLines b.toNat regions, lineIn (u.tile b.toNat x.toNat).lines no = none ∧ no ∈ u.published) ∧
        ∀ z, z < 128 → z ≠ x.toNat → u.tile b.toNat z = s.tile b.toNat z) ∧
      (∀ scope sa val regions p, c.what = .rel scope sa val regions →
        let s₁ := if 2 ≤ scope.toNat then
            (s.drainFifo b.toNat x.toNat).publish ((s.drainFifo b.toNat x.toNat).regionLines b.toNat regions) else s
        let s₂ := if 6 ≤ scope.toNat then (s₁.regionLines b.toNat regions).foldl State.writeBackDie s₁ else s₁
        s₂.walk b.toNat sa.toNat = .ok p → p.w = true →
        let s₃ := s₂.dropTileLine b.toNat x.toNat (p.loc / 128)
        let s₄ := if tierOf p.loc = 2 then s₃.flushDie (p.loc / 128) else s₃
        (s₄.homeLine (p.loc / 128)).bad = false →
        exec (.gatewayCommandStart b x k) s = go ((s₄.countHome b.toNat (p.loc / 128)).homeWrite p.loc (leBytes 8 val.toNat))) ∧
      (∀ scope, c.what = .fence scope → ∃ u, exec (.gatewayCommandStart b x k) s = .next u ∧
        (scope.toNat < 2 → go s = .next u) ∧ (2 ≤ scope.toNat → (u.tile b.toNat x.toNat).lines = []) ∧
        (6 ≤ scope.toNat → ∀ no, tierOf (128 * no) = 2 → u.dieLine no = none) ∧
        ∀ z, z < 128 → z ≠ x.toNat → u.tile b.toNat z = s.tile b.toNat z)) ∧
    (∀ (j : BitVec 7) dst ga q f va bs s₁, c.what = .fill dst ga q f → c.started = true → j.toNat ∉ c.done →
      ga[j.toNat]? = some va → s.imageRead b.toNat x.toNat va.toNat (if blockScaled f then 544 else 512) = (bs, s₁, none) →
      ∃ u, exec (.gatewayFill b x k j) s = .next u ∧
        (∀ n v, dst = .row n v → n < 256 → nth (u.tile b.toNat x.toNat).rows n {} = imageRow f bs) ∧
        (∀ g n, dst = .slots g n → (s₁.tile b.toNat x.toNat).holdsFill g (n + j.toNat) = false →
          (s₁.bay b.toNat).hasSlot x.toNat g (n + j.toNat) = true →
          ((u.tile b.toNat x.toNat).slot g (n + j.toNat)).fresh = true ∧
          ((u.tile b.toNat x.toNat).slot g (n + j.toNat)).seq = q ∧
          ((u.tile b.toNat x.toNat).slot g (n + j.toNat)).data = (imageRow f bs).data ∧
          ((u.tile b.toNat x.toNat).slot g (n + j.toNat)).scales
            = if blockScaled f then BitVec.ofNat 256 (leNat (bs.drop 512)) else 0) ∧
        let bc (v : State) : Word := nth ((v.bay b.toNat).cluster (x.toNat / 16)).bc (q.extractLsb' 12 4).toNat 0
        ((∀ g n, dst = .slots g n → (s₁.tile b.toNat x.toNat).holdsFill g (n + j.toNat) = false) → bc u = bc s₁ + 512) ∧
        (∀ g n, dst = .slots g n → (s₁.tile b.toNat x.toNat).holdsFill g (n + j.toNat) = true → bc u = bc s₁)) ∧
    (c.finished = true → c.landed t = true → c.evs = [] → (nth t.toks k.toNat {}).out = true → ∃ u, exec (.tokenCompletion b x k) s = .next u ∧
      nth (u.tile b.toNat x.toNat).toks k.toNat {} = { out := false, empty := c.what.nothing, flt := c.flt, arm := none } ∧
      (u.tile b.toNat x.toNat).cmds = [] ∧
      (∀ n v, (nth t.toks k.toNat {}).arm = some (.sem n v) → n < 16 →
        (nth (u.tile b.toNat x.toNat).sems n {}).count.toNat = min ((nth t.sems n {}).count.toNat + v.toNat) (2 ^ 32 - 1)) ∧
      (∀ n, (nth t.toks k.toNat {}).arm = some (.mtx n) → n < 8 →
        (nth (u.tile b.toNat x.toNat).mtxs n {}).held = false)) ∧
    (∀ e n, c.finished = true → c.landed t = true → c.evs = [(e, n)] → (nth t.toks k.toNat {}).out = true → e < 16 →
      let thr := (nth t.evthr e 0).toNat
      let new := min ((nth t.ev e 0).toNat + n) (2 ^ 32 - 1)
      (e = 4 → y.evact.getLsbD 32 = true) →
      ∃ u, exec (.tokenCompletion b x k) s = .next u ∧ (nth (u.tile b.toNat x.toNat).ev e 0).toNat = new ∧
        (thr ≠ 0 → (nth t.ev e 0).toNat ≤ thr → thr < new →
          (y.evact.getLsbD (2 * e + 1) = true →
            (u.steward b.toNat).pending = ((s.steward b.toNat).pendCause 0x145 false 0).pending) ∧
          (y.evact.getLsbD (2 * e) = true → (nth (u.tile b.toNat x.toNat).toks k.toNat {}).flt = true ∧
            ((y.cluster (x.toNat / 16)).faults.length < 256 → ∃ rec : BitVec 256,
              rec.extractLsb' 128 9 = BitVec.ofNat 9 (0x0D0 + e) ∧
              ((u.bay b.toNat).cluster (x.toNat / 16)).faults = (y.cluster (x.toNat / 16)).faults ++ [rec])))) ∧
    (∀ v w, c.contribs = [v] → v.bytes = [w] → ∃ u, exec (.contributionArrival b x k v.index) s = .next u ∧
      ((u.tile b.toNat x.toNat).cmds.map Cmd.contribs) = [[]] ∧
      (∀ cl, y.collOf (s.coAt b.toNat v.va) v.va c.tclk = some cl → find cl.present (v.va - cl.cbase) = none →
        let d := s.descriptor y cl.desc
        (u.bay b.toNat).ep = y.ep.putColl d ((d.position y.rankid.toNat).getD 0)
          { cl with present := insertAt cl.present (v.va - cl.cbase) (w, v.bad) }) ∧
      (∀ cause : Cause, (y.collOf (s.coAt b.toNat v.va) v.va c.tclk = none ∧ cause = 0x101) ∨
          (∃ cl, y.collOf (s.coAt b.toNat v.va) v.va c.tclk = some cl ∧ find cl.present (v.va - cl.cbase) ≠ none ∧ cause = 0x102) →
        (u.tile b.toNat x.toNat).cmds.map Cmd.flt = [true] ∧
        (u.bay b.toNat).ep = y.ep ∧ ((y.cluster (x.toNat / 16)).faults.length < 256 → ∃ rec : BitVec 256,
          rec.extractLsb' 128 9 = cause ∧
          ((u.bay b.toNat).cluster (x.toNat / 16)).faults = (y.cluster (x.toNat / 16)).faults ++ [rec])))) ∧
  (∀ (s : State) (b x va n lv : Nat), b < 8 → x < 128 →
    let ls := s.rangeLines b va n
    let t := s.tile b x
    let w := s.writeBackRange b x va n
    let d := s.invalidate b x va n
    (∀ l ∈ ls, lineIn (d.tile b x).lines l.1 = none ∧ ∀ m, lineIn (w.tile b x).lines l.1 = some m → m.mask = 0) ∧
    (∀ no, (lineIn (w.tile b x).lines no).map Line.data = (lineIn t.lines no).map Line.data) ∧
    (∀ no, (∀ l ∈ ls, l.1 ≠ no) → lineIn (d.tile b x).lines no = lineIn t.lines no ∧ lineIn (w.tile b x).lines no = lineIn t.lines no) ∧
    (∀ no p l, ls = [(no, p)] → lineIn t.lines no = some l → l.mask ≠ 0 → ∀ u, u = w ∨ u = d →
      (u.dieLine no).map Line.data = some (l.over (s.l2Line no))) ∧
    (∀ no p, ls = [(no, p)] → lineIn t.lines no = none → (s.l2Line no).bad = false → let u := s.prefetch b x va n lv
      (min p.cl lv = 1 → (u.dieLine no).map Line.data = some (s.l2Line no).data) ∧
      (min p.cl lv = 2 → 1 ≤ (s.bay b).lineCapacity x →
        lineIn (u.tile b x).lines no = some { s.l2Line no with mask := 0, ev := p.ev }))) ∧
  (∀ (r : Run) (ps : List Piece), r.out = ps →
    (∀ no, (∀ p ∈ ps, p.va / 128 = no) → ps ≠ [] → r.flush = { r.writeRuns (pieceRuns ps 128 (128 * no)) with out := [] }) ∧
    r.flush = { (ps.map (fun p => p.va / 128)).dedup.foldl (fun r no =>
      r.writeRuns (pieceRuns (ps.filter (fun p => p.va / 128 == no)) 128 (128 * no))) r with out := [] }) ∧
  (∀ (ps : List Piece) (n a i : Nat) (v : Byte), i < n →
    ((∃ q ∈ pieceRuns ps n a, q.va ≤ a + i ∧ q.bytes[a + i - q.va]? = some v)
      ↔ ∃ us p vs, ps = us ++ p :: vs ∧ p.va ≤ a + i ∧ p.bytes[a + i - p.va]? = some v ∧
        ∀ w ∈ vs, ¬(w.va ≤ a + i ∧ a + i < w.va + w.bytes.length))) ∧
  (∀ (r : Run) (p : Piece) (ps : List Piece) (s : State), r.writeRuns [] = r ∧
    (r.s.vaWritePiece r.b r.x p.va p.bytes = (s, none) → r.writeRuns (p :: ps) = ({ r with s := s } : Run).writeRuns ps) ∧
    (∀ e zs, r.s.vaWritePiece r.b r.x p.va p.bytes = (s, some (e, zs)) →
      let q := ({ r with s := s } : Run).fault e zs (p.va / 128 * 128) p.index 0xFFFF
      r.writeRuns (p :: ps) = if zs then (q.event [12]).writeRuns ps else q)) ∧
  (∀ va n : Nat, spansOf va 0 = [] ∧
    (n ≠ 0 → let k := min n (128 - va % 128)
      spansOf va n = (va, k) :: spansOf (va + k) (n - k))) ∧
  (∀ (r : Run) (j a k : Nat) (rest : List (Nat × Nat)) (bs : List Byte) (s : State),
    r.copySource j [] = (r, []) ∧
    (r.s.imageRead r.b r.x a k = (bs, s, none) → let q := ({ r with s := s } : Run).copySource (j + 1) rest
      r.copySource j ((a, k) :: rest) = (q.1, bs.map (fun v => (v, true)) ++ q.2)) ∧
    (∀ e zs va, r.s.imageRead r.b r.x a k = (bs, s, some ((e, zs), va)) →
      let q := (({ r with s := s } : Run).fault e zs a j 0xFFFF).copySource (j + 1) rest
      r.copySource j ((a, k) :: rest) = (q.1, List.replicate k (0, zs) ++ q.2))) ∧
  (∀ (r : Run) (j a k : Nat) (rest : List (Nat × Nat)) (bs : List (Byte × Bool)), r.copyLines j bs [] = r ∧
    (1 ≤ k → k ≤ bs.length → (∀ v ∈ bs.take k, v.2 = true) → let ps := vaPieces a ((bs.take k).map Prod.fst)
      (∀ p ∈ ps, ∃ pg, r.s.walk r.b p.1 = .ok pg ∧ pg.w = true ∧ pg.c = false) →
      r.copyLines j bs ((a, k) :: rest) = ({ r with out := r.out ++ ps.map (fun p => { index := j, va := p.1, bytes := p.2 }) }
        : Run).copyLines (j + 1) (bs.drop k) rest)) ∧
  (∀ (r : Run) (dest ga op size i e e' : Nat) (rest : List (Nat × Nat)), r.atomAll dest ga op size none i [] = (r, []) ∧
    let va := (ga + i * size) % 2 ^ 64
    let q := r.atomElem false dest i va op size e e'
    let more := q.1.atomAll dest ga op size none (i + 1) rest
    r.atomAll dest ga op size none i ((e, e') :: rest) = (more.1, q.2 :: more.2) ∧
    ∀ p, r.s.walk r.b va = .ok p → p.c = false → p.w = true →
      let s₁ := (r.s.clearCopies r.b r.x (p.loc / 128)).countHome r.b (p.loc / 128)
      let z := atomOp op (8 * size) (s₁.homeLe p.loc size).1 e e'
      (s₁.homeLine (p.loc / 128)).bad = false →
        q = (({ r with s := s₁.homeWrite p.loc (leBytes size z.1) } : Run).event z.2, (s₁.homeLe p.loc size).1))

/-- Decode jobs, code prefetch and WAITA's watcher in time (09_ordering R271; 10_queues R279, R288): a waiting elastic
job starts two wc after its issue and then pushes up to its rate each wc while the queue holds fewer than 1,024 entries;
the oldest request of a prefetch queue is removed, and staged in that cluster unless it is resident there; a callee that a CALL waits
for then counts as entered, or, where it cannot be staged, its CALL is to raise 0x087 or 0x049 (11_tables R298; 05_control_registers
R140; that it does so in the tc of its entry is the model's reading, log entry 92), and one whose request a full queue lost is asked for again (log entry 80). A tile's watcher reads the word of the WAITA that
freezes the bay, or that CT comes to; a read that satisfies it or faults is kept as the observation that ends its wait (the model's,
log entry 67). A read that misses the die cache that is its home counts
event 40 (13_counters R353); how many translation misses and walks a read or staging counts is a free value (log entry 18). -/
def Obligations.QueueSteps : Prop :=
  ∀ (s : State) (b : BitVec 3) (x : BitVec 7),
    let y := s.bay b.toNat
    let t := s.tile b.toNat x.toNat
    let q := t.oq
    (∀ u addr val mask cond, let c : Cond := .watch addr val mask cond
      y.phase = .running → s.watching b.toNat x.toNat = some (u, c) → (∀ f, t.watch ≠ some (u, c, f)) →
      exec (.watcherRead b x) s = .next (((s.setTile b.toNat x.toNat (match s.watchWord b.toNat addr with
        | none => { t with watch := some (u, c, true) }
        | some w => if watchHolds (cond.setWidth 3) w val mask then { t with watch := some (u, c, false) } else t)).countWatch
          b.toNat addr).countWalks b.toNat)) ∧
    (∀ (addr : Word) p, addr.toNat % 8 = 0 → s.walk b.toNat addr.toNat = .ok p →
      s.countWatch b.toNat addr = if tierOf p.loc ≤ 1 ∧ s.dieLine (p.loc / 128) = none then s.setBay b.toNat (y.count 40) else s) ∧
    (∀ f w ws, y.freeze = some f → f.waits.filter (fun w => !w.ok && (w.tile == x.toNat && w.cond.isWatch)) = w :: ws →
      s.watching b.toNat x.toNat = some (f.tc, w.cond)) ∧
    (∀ j es, q.jobs = [j] → j.strict = false → j.started = false → j.finished = false → j.waits = [] → j.src = .ready es →
      j.w0 + 2 ≤ s.wc → q.freeTc ≤ s.wc → exec (.sxJobStart b x) s = .next (s.setTile b.toNat x.toNat
        { t with oq := { q with jobs := [{ j with started := true, finished := es.isEmpty }] } })) ∧
    (∀ j es, q.jobs = [j] → j.strict = false → j.started = true → j.finished = false → j.src = .ready es →
      q.freeTc ≤ s.wc → q.entries.length < 1024 → ∃ u, exec (.offsetPush b x) s = .next u ∧
        (u.tile b.toNat x.toNat).oq.entries = q.entries ++ es.take (min q.rate.toNat (1024 - q.entries.length)) ∧
        (u.tile b.toNat x.toNat).oq.pops = q.pops) ∧
    (∀ (cl : BitVec 3) fn rest, y.phase = .running → (y.cluster cl.toNat).prefetch = fn :: rest →
      let s' := s.setBay b.toNat (y.setCluster cl.toNat { y.cluster cl.toNat with prefetch := rest })
      let entered (u : State) : State := if y.awaits fn then u.setBay b.toNat
        ((u.bay b.toNat).setCluster cl.toNat (((u.bay b.toNat).cluster cl.toNat).enterFn fn)) else u
      let asked (u : State) : State := u.setBay b.toNat ((u.bay b.toNat).reask cl.toNat)
      let fails (why : Cause × Word) : State := asked (s'.setBay b.toNat { s'.bay b.toNat with
        entering := y.entering.map (fun e => if e.fn = fn then { e with fault := some why } else e) })
      (y.hasFn cl.toNat fn = true → exec (.prefetchStaging b cl) s = .next (asked (entered s'))) ∧
      (∀ f, y.hasFn cl.toNat fn = false → s'.stageFn b.toNat fn.toNat = some f →
        exec (.prefetchStaging b cl) s = .next ((if (s'.bay b.toNat).codeFits cl.toNat f.size
          then asked (entered (s'.setBay b.toNat ((s'.bay b.toNat).placeFn cl.toNat f))) else fails (0x049, 0)).countWalks b.toNat)) ∧
      (y.hasFn cl.toNat fn = false → s'.stageFn b.toNat fn.toNat = none →
        exec (.prefetchStaging b cl) s = .next ((fails (0x087, s'.stageFault b.toNat fn.toNat)).countWalks b.toNat))) ∧
    (∀ cl : Nat, let c := y.cluster cl
      let lost := y.entering.find? (fun e => e.fault.isNone && !y.hasFn cl e.fn && !c.prefetch.contains e.fn)
      (lost = none ∨ 16 ≤ c.prefetch.length → y.reask cl = y) ∧
      (∀ e, lost = some e → c.prefetch.length < 16 → y.reask cl = y.setCluster cl { c with prefetch := e.fn :: c.prefetch }))

/-- Collectives in time (12_endpoints R331, R333 to R335, R410; 04_numbers R122; 14_contexts R371): a child value formed for the
same descriptor is kept at its parent's owner, another is discarded with a record 0x103, one that the owner holds changes
nothing, and over a port that is down none moves; a node combines its two children, left then right, never over a discarded one,
element by element of its operation (R331, Table 6; broadcast and gather join them), and an absent right child passes the left one; a delivered collective is closed, and one
that a participant receives nothing of once every receiver has its result, also those assigned to this device that it has not
launched yet. What the 0x103 record holds beside its cause, that the
discarded child's mark takes its place, and that a participant that receives nothing counts no event are the model's readings
(log entries 36, 11 and 75). -/
def Obligations.CollectiveSteps : Prop :=
  ∀ (s : State) (job : Word) (rank : BitVec 20) (t : Seat) (c : Coll),
    let e := t.y.ep
    let d := s.descriptor t.y c.desc
    let r : RankName := { job := job, rank := rank }
    let held (v : ChildValue) : Prop := let lo := v.lo - v.lo % (2 * (v.hi - v.lo))
      (e.value v.id v.lo v.hi).isSome = true ∨ (e.value v.id lo (lo + 2 * (v.hi - v.lo))).isSome = true
    s.seat job rank = some t → e.coll c.id = some c →
    (∀ (v : ChildValue) (port : BitVec 5), v.id = c.id →
      let way : ValueRoute := { dst := r, port := port }
      (s.linkUp port = false → ∀ u, exec (.childValueTransfer way v) s ≠ .next u) ∧
      (s.linkUp port = true → held v → exec (.childValueTransfer way v) s = .next s) ∧
      (s.linkUp port = true → ¬held v → v.desc.toNat = c.desc →
        exec (.childValueTransfer way v) s = .next (s.setEp job rank (e.keep v))) ∧
      (∀ b, s.linkUp port = true → ¬held v → v.desc.toNat ≠ c.desc → t.bay = some b →
        ((s.bay b).cluster 0).faults.length < 256 → ∃ u, exec (.childValueTransfer way v) s = .next u ∧
        (u.bay b).ep = e.refuse v ∧ ∃ rec : BitVec 256, rec.extractLsb' 128 9 = 0x103#9 ∧
          ((u.bay b).cluster 0).faults = ((s.bay b).cluster 0).faults ++ [rec])) ∧
    (∀ lo hi l, isNode d.span lo hi = true → d.position rank.toNat = some lo → e.value c.id lo hi = none →
      e.value c.id lo ((lo + hi) / 2) = some l →
      (∀ u, s.reachValue e job c.id ((lo + hi) / 2) hi = some u →
        (isMark u = false → u.desc.toNat = c.desc →
          exec (.nodeCombine r c.id lo hi) s
            = .next (s.setEp job rank ((e.keep (nodeValue d l u)).drop c.id ((lo + hi) / 2) hi))) ∧
        (isMark u = false → u.desc.toNat ≠ c.desc → exec (.nodeCombine r c.id lo hi) s = .next (s.refuseChild t c u)) ∧
        (isMark u = true → ∀ w, exec (.nodeCombine r c.id lo hi) s ≠ .next w)) ∧
      (s.reachValue e job c.id ((lo + hi) / 2) hi = none → d.n ≤ (lo + hi) / 2 →
        exec (.nodeCombine r c.id lo hi) s = .next (s.setEp job rank (e.keep { l with hi := hi })))) ∧
    (∀ pos via, d.position rank.toNat = some pos → c.delivered = false → d.complete pos c = true →
      let n : Notice := { toRankName := r, via := via }
      (∀ from_ len root, d.received pos c.size = some (from_, len) → s.reachValue e job c.id 0 d.span = some root →
        ∃ u z, exec (.collectiveDelivery n c.id) s = .next u ∧ u.endpointOf job rank = some z ∧ z.opened = e.opened - 1 ∧
          ∀ k ∈ z.colls, k.id = c.id → k.delivered = true) ∧
      (d.received pos c.size = none →
        (s.allReceived job d c.id c.size via = true → exec (.collectiveDelivery n c.id) s = .next (s.setEp job rank (e.close c.id))) ∧
        (s.allReceived job d c.id c.size via = false → ∀ u, exec (.collectiveDelivery n c.id) s ≠ .next u))) ∧
    (∀ via, let here := s.receiversHere job d c.size
      s.allReceived job d c.id c.size via = true ↔ d.receivers = 0 ∨ (s.nodesFormed job d c.id = true ∧
        (∀ b < 8, ∀ a ∈ (s.bay b).assigned, a.job = job → (∃ pos, d.position a.rank.toNat = some pos ∧ d.received pos c.size ≠ none) →
          a.rank ∈ s.ranksHere job) ∧
        (here.length = d.receivers ∨ ∃ p, via = some p ∧ s.linkUp p = true) ∧
        ∀ q ∈ here, ∃ z k, s.endpointOf job q = some z ∧ z.coll c.id = some k ∧ k.delivered = true)) ∧
    (∀ l u : ChildValue, (nodeValue d l u).hi = u.hi ∧ (nodeValue d l u).lo = l.lo ∧ (nodeValue d l u).id = l.id ∧
      (nodeValue d l u).desc = l.desc ∧
      (d.op = 9 ∨ d.op = 10 → (nodeValue d l u).bytes = l.bytes ++ u.bytes ∧ (nodeValue d l u).bad = l.bad ++ u.bad) ∧
      ∀ m, let n := d.elemBytes
        let part {α : Type} (i : Nat) (xs : List α) : List α := (xs.drop (n * i)).take n
        d.op ≤ 8 → 1 ≤ n → l.bytes.length = n * m → u.bytes.length = n * m → l.bad.length = n * m → u.bad.length = n * m →
        (nodeValue d l u).bytes = (List.range m).flatMap (fun i => (nodeElem d (part i l.bytes) (part i u.bytes)).1) ∧
        (nodeValue d l u).bad = (List.range m).flatMap (fun i =>
          List.replicate n ((part i l.bad).any id || (part i u.bad).any id))) ∧
    (∀ l u : List Byte, let f := d.dtype
      let a := leNat l
      let b := leNat u
      let v (x : Nat) : Val := decodeElem f false 127 x
      let gives (x : Nat) (ev : List Nat) : Prop := nodeElem d l u = (leBytes (elemWidth f / 8) x, ev)
      (d.op = 0 → f = 23 → gives (Nat.lor (a / 2 ^ 104 % 16) (b / 2 ^ 104 % 16) * 2 ^ 104 + (a + b) % 2 ^ 104) []) ∧
      (d.op = 0 → f ≠ 23 → let z := finish f 0 false 0 (addV 0 (v a) (v b))
        gives z.1 z.2) ∧
      (d.op = 1 → gives (minMax f true false a b).1 (minMax f true false a b).2) ∧
      (d.op = 2 → gives (minMax f false false a b).1 (minMax f false false a b).2) ∧
      (d.op = 3 → gives (keySelect true a b) []) ∧ (d.op = 4 → gives (keySelect false a b) []) ∧
      (d.op = 5 → let z := combine (tripleOf l) (tripleOf u)
        nodeElem d l u = (tripleBytes z.1, z.2)) ∧
      (d.op = 6 → gives (Nat.land a b) []) ∧ (d.op = 7 → gives (Nat.lor a b) []) ∧ (d.op = 8 → gives (Nat.xor a b) []))

/-- The steps of links, time and power (14_contexts R371; 19_boundaries R395 to R402; 13_counters R352): a link that goes down is
marked and raises 0x14B, a retrained one is back; the time root's exchange and the path delays of the others step fabric time
once, when it is acquired, the delays over a link that is up; a telemetry tick, at its fabric time and within the slew bound only, sets the status bits from the
measured powers and sensors by the limits' priority, adds each bay's energy without loss, raises 0x14C above 105 degrees and
stops the device above 115. The units of the measured powers are the model's reading (log entry 27). -/
def Obligations.LinkAndPowerSteps : Prop :=
  ∀ (s : State),
    (∀ port : BitVec 5, port.toNat < 24 →
      (∃ u, exec (.linkDown port) s = .next u ∧ u.ports = s.ports ||| 1#24 <<< port.toNat ∧
        (u.steward 8).pending = ((s.steward 8).pendCause 0x14B false 0).pending ∧ u.mem = s.mem ∧ u.bays = s.bays) ∧
      exec (.fabricLinkRetrain port) s = .next { s with ports := s.ports &&& ~~~(1#24 <<< port.toNat) }) ∧
    (∀ stack : BitVec 4, stack.toNat < 12 → exec (.hbmRetrain stack) s = .next s) ∧
    (∀ m, s.timeRoot = false ∨ (s.steward 8).running = false → exec (.ptpMessage m) s = .next s) ∧
    (s.timeRoot = true → (s.steward 8).running = true →
      exec (.ptpMessage .sync) s = .next { s with ptp := [s.ftime] } ∧
      (∀ t1 t2, s.ptp = [t2] → exec (.ptpMessage (.followUp t1)) s = .next { s with ptp := [t2, t1] }) ∧
      (∀ t1 t2, s.ptp = [t2, t1] → exec (.ptpMessage .delayReq) s = .next { s with ptp := [t2, t1, s.ftime] }) ∧
      (∀ t1 t2 t3 t4, s.ptp = [t2, t1, t3] → ∃ u, exec (.ptpMessage (.delayResp t4)) s = .next u ∧ u.ptp = [] ∧
        u.acquired = true ∧ u.power.aligned = true ∧ u.mem = s.mem ∧ u.bays = s.bays ∧
        u.ftime = if s.acquired then s.ftime
          else s.ftime - BitVec.ofInt 64 (((t2.toInt - t1.toInt) - (t4.toInt - t3.toInt)) / 2))) ∧
    (∀ (t : BitVec 64) al, (s.timeRoot = true → exec (.pathDelayExchange t al) s = .next s) ∧
      (s.timeRoot = false → s.linkUp s.rootPort = false → ∀ u, exec (.pathDelayExchange t al) s ≠ .next u) ∧
      (s.timeRoot = false → s.linkUp s.rootPort = true → ∃ u, exec (.pathDelayExchange t al) s = .next u ∧ u.acquired = true ∧ u.power.aligned = al ∧
        u.ftime = (if s.acquired then s.ftime else t + BitVec.ofNat 64 (Config.pathDelay s.free)) ∧
        u.mem = s.mem ∧ u.bays = s.bays)) ∧
    (∀ m : Measure, (s.tickDue = false ∨ s.power.allows m = false → ∀ u, exec (.telemetryTick m) s ≠ .next u) ∧
      (s.tickDue = true → s.power.allows m = true → ∃ u, exec (.telemetryTick m) s = .next u ∧
        let mw := m.package.toNat
        let heat : Prop := ∃ h ∈ m.hottest, 105 < h.toNat
        let beyond : Prop := 1000 * s.power.cap.toNat < mw
        let rises : Prop := s.power.range.isSome = true ∧ s.power.last.toNat + 100 * s.power.slew.toNat ≤ mw
        let falls : Prop := s.power.range.isSome = true ∧ mw + 100 * s.power.slew.toNat ≤ s.power.last.toNat
        (u.power.therm = true ↔ heat) ∧ (u.power.thr = true ↔ heat ∨ beyond ∨ rises) ∧
        (u.power.bal = true ↔ s.power.ben = true ∧ ¬heat ∧ ¬beyond ∧
          (falls ∨ (¬rises ∧ mw < 1000 * s.power.floor.toNat))) ∧
        u.power.seq = s.power.seq + 1 ∧ u.power.next = s.power.next + 100000 ∧
        ((∃ h ∈ m.hottest, 115 < h.toNat) → u.phase = .stopped) ∧
        ((∀ h ∈ m.hottest, h.toNat ≤ 115) → u.phase = s.phase) ∧
        (heat → (u.steward 8).pending = ((s.steward 8).pendCause 0x14C false 0).pending) ∧
        (∀ b, b < 8 → let e := (s.bay b).spare + ((m.bays[b]?).getD 0).toNat
          (u.bay b).energy = (s.bay b).energy + BitVec.ofNat 64 (e / 10) ∧ (u.bay b).spare = e % 10) ∧
        (s.power.telbase = 0 → u.mem = s.mem)))

/-- The steps that start, update, read and stop the device (14_contexts R364 to R371; 19_boundaries R392 to R394, R399, R404 to
R407; 01_device R23, R24; 11_tables R292): reset brings every bay to its reset state, and with a verified configuration image
its settings hold and the verified firmware starts; an image that fails verification raises 0x14D and changes no core, another
starts where its core may restart and waits elsewhere; a request is answered on the management port, or from the mailbox once
the doorbell has its value; companion and CXL accesses act at home and reads change nothing; the doorbell, the mailbox, tier
sizes and biases are set; a failed shared part or power loss takes every bay out of service; Convoy moves the pages of an image
or puts back what has been written since a snapshot, so that the rank stands at it again, and takes a rank that no bay runs
and that stands at its image to another device. The model's choices and readings: HBM
and LPDDR read as unwritten after a reset (log entry 2), a snapshot's place and the images that Convoy moves (46, 47), when a
request is answered (56), how the companion asks for what it asks (66), a range that R394 does not allow (87); where the doorbell
and the mailbox lie (22); what a report holds (13 and 14). -/
def Obligations.DeviceSteps : Prop :=
  ∀ (s : State),
    (∃ u, exec .deviceReset s = .next u ∧ u.flash = s.flash ∧ u.wc = s.wc ∧ u.jobs = [] ∧
      u.power = State.reset.power ∧ (∀ a, a < 2 * 2 ^ 52 → find u.mem a = none) ∧
      (∀ b, b < 8 → u.bay b = { ({} : Bay) with tables := (u.bay b).tables }) ∧
      ((∀ f ∈ s.flash, f.kind = 1 → f.verifies = false) → u.phase = .boot ∧ u.stewards = State.reset.stewards ∧
        u.bays = State.reset.bays) ∧
      (∀ f, s.flash.find? (fun f => f.kind == 1#8 && f.verifies) = some f →
        u.settings = (if s.hasHdm f.settings then f.settings else { f.settings with hdmBase := 0, hdmSize := 0 }) ∧
        ∀ b, b < 8 → (u.bay b).tables = f.settings.tables.getD b [])) ∧
    (∀ f : FlashImage, (s.steward 8).running = false → ∀ u, exec (.firmwareUpdate f) s ≠ .next u) ∧
    (∀ f : FlashImage, (s.steward 8).running = true → s.slotBusy f = false → ∃ u, exec (.firmwareUpdate f) s = .next u ∧ f ∈ u.flash ∧ u.mem = s.mem ∧
      u.bays = s.bays ∧ (f.verifies = false → (u.steward 8).pending = ((s.steward 8).pendCause 0x14D false 0).pending ∧
        (∀ k, k < 8 → u.steward k = s.steward k) ∧ ∀ w ∈ u.updates, sameSlot w.2 f = false) ∧
      (f.verifies = true → ∀ k, k < 9 → stewardImage k = (f.kind.toNat, f.die.toNat) →
        if s.canRestart k then u.steward k = (s.steward k).load f else (k, f) ∈ u.updates)) ∧
    (∀ req, goodRequest req = false → exec (.attestationRequest true req) s = .next s) ∧
    (∀ req, goodRequest req = true → (s.steward 8).running = true →
      exec (.attestationRequest true req) s = .next { s with free := s.free + 1 } ∧
      (s.doorbell = 0x51535441 → s.mailbox.toList = req → replyLoc req % 4096 = 0 → s.locOk (replyLoc req) 2000 = true →
        exec (.attestationRequest false req) s
          = .next (({ s with free := s.free + 1 } : State).writeReport (replyLoc req) (s.report req)))) ∧
    (∀ (loc : Word) n, s.locOk loc.toNat n = true → exec (.companionAccess (.read loc n)) s = .next s ∧
      (s.inHdm loc.toNat n = true ∨ tierOf loc.toNat = 2 → exec (.cxlAccess (.read loc n)) s = .next s)) ∧
    (∀ (loc : Word) bs, s.locOk loc.toNat bs.length = true →
      (loc.getLsbD 63 = false → exec (.companionAccess (.write loc bs)) s = .next (s.homeWrite loc.toNat bs)) ∧
      (s.inHdm loc.toNat bs.length = true ∨ tierOf loc.toNat = 2 →
        exec (.cxlAccess (.write loc bs)) s = .next (s.homeWrite loc.toNat bs))) ∧
    (∀ bs : List Byte, bs.length = 8 → exec (.companionAccess (.write (BitVec.ofNat 64 (2 ^ 63)) bs)) s
        = .next (({ s with doorbell := BitVec.ofNat 64 (leNat bs) } : State).notify 8 0x14A) ∧
      ∀ i, i < 8 → ∃ u, exec (.companionAccess (.write (BitVec.ofNat 64 (2 ^ 63 + 0x40 + 8 * i)) bs)) s = .next u ∧
        ∀ j, j < 64 → nth u.mailbox j 0 = if 8 * i ≤ j ∧ j < 8 * i + 8 then bs.getD (j - 8 * i) 0 else nth s.mailbox j 0) ∧
    ((s.steward 8).running = true → ∀ n,
      exec (.companionAccess (.size n)) s = .next { s with compSize := n } ∧
      exec (.cxlAccess (.size n)) s = .next { s with cxlSize := n } ∧
      (∀ root port, exec (.companionAccess (.nameRoot root port)) s = .next { s with timeRoot := root, rootPort := port }) ∧
      (∀ port, exec (.companionAccess (.mirror port)) s = .next { s with mirrorPort := port }) ∧
      (∀ (b : BitVec 3) (job : Word) (rank : BitVec 20) filler, ∃ u,
        exec (.companionAccess (.assign b job rank filler)) s = .next u ∧
        (∃ a ∈ (u.bay b.toNat).assigned, a.job = job ∧ a.rank = rank ∧ a.filler = filler) ∧
        ∀ i, i < 8 → i ≠ b.toNat → ∀ a ∈ (u.bay i).assigned, ¬(a.job = job ∧ a.rank = rank)) ∧
      (∀ host, s.inHdm (2 ^ 52 + 65536 * n) 65536 = true → ∃ u, exec (.companionAccess (.bias n host)) s = .next u ∧
        ((n ∈ u.hostBias) ↔ host = true) ∧ ∀ m, m ≠ n → (m ∈ u.hostBias ↔ m ∈ s.hostBias))) ∧
    (∀ p, ∃ u, exec (.sharedPartFailure p) s = .next u ∧ u.phase = .stopped ∧ u.mem = s.mem ∧
      ∀ b, b < 8 → (u.bay b).service = false) ∧
    (∃ u, exec .boardPowerLoss s = .next u ∧ u.phase = .off ∧ ∀ k, k < 9 → (u.steward k).running = false) ∧
    (∀ (src dst : Word) (frames : List Word) stopped,
      let fs := frames.map (fun f => f.toNat)
      let moves := (s.imagePages (BitVec.ofNat 64 (s.homeLe (src.toNat + 0x28) 8).1)).zip fs
      s.movable src.toNat dst.toNat fs stopped = true → ∃ u, exec (.convoyTransfer (.move src dst frames stopped)) s = .next u ∧
        u.wc = s.wc ∧ (∀ i, i < 8 → (((s.bay i).save ≠ src ∨ stopped = true) → u.bay i = s.bay i) ∧
          { u.bay i with save := (s.bay i).save } = s.bay i) ∧
        (stopped = true → u = moves.foldl (fun s m => s.homeWrite m.2 (s.homeRead m.1.loc m.1.size).1)
          (s.homeWrite (dst.toNat + 2) [0]))) ∧
    (∀ (job : Word) (rank : BitVec 20) z save no bs, s.snapshotOf job rank = some z → s.saveOf job rank = some save →
      s.turning z = false → s.roomToRestore z = true →
      (z.current.launch = true → z.current.pages = [(no, bs)] →
        exec (.convoyTransfer (.restore job rank none)) s
          = .next ((if z.since.contains no then s.homeWrite (65536 * no) bs else s).standBack z)) ∧
      (z.current.launch = false → z.current.ctx ≠ [] →
        let pages (n : Nat) : State := (z.stale.take n).foldl (fun s p => s.homeWrite (65536 * p.1) p.2)
          (s.homeWrite (save.toNat + 2) [0])
        exec (.convoyTransfer (.restore job rank none)) s
          = .next (((pages z.stale.length).copyArea save.toNat z.current.ctx).standBack z) ∧
        ∀ n, exec (.convoyTransfer (.restore job rank (some n))) s = .next (pages n))) ∧
    (∀ (job : Word) (rank : BitVec 20) (port : BitVec 5),
      (s.linkUp port = false ∨ s.mayDepart job rank = false → ∀ u, exec (.convoyTransfer (.depart job rank port)) s ≠ .next u) ∧
      (s.linkUp port = true → s.mayDepart job rank = true → ∃ u, exec (.convoyTransfer (.depart job rank port)) s = .next u ∧
        u.mem = s.mem ∧ u.dies = s.dies ∧ (∀ p ∈ u.parked, ¬(p.job = job ∧ p.rank = rank)) ∧ u.bayOf job rank = none ∧
        u.snapshotOf job rank = none ∧ ∀ i, i < 8 → (∀ a ∈ (u.bay i).assigned, ¬(a.job = job ∧ a.rank = rank)) ∧
          ((s.bay i).job ≠ job ∨ (s.bay i).rankid ≠ rank → (u.bay i).phase = (s.bay i).phase ∧ (u.bay i).ep = (s.bay i).ep))) ∧
    (∀ (job : Word) (rank : BitVec 20) (z : Snapshot), s.snapshotOf job rank = some z → z.restored = true →
      (∀ b, b < 8 → (s.bay b).job = job → (s.bay b).rankid = rank → (s.bay b).engaged = false) → s.mayDepart job rank = true) ∧
    (∀ (job : Word) (rank : BitVec 20) (port : BitVec 5) (dst : Word) (i : ImageData), s.linkUp port = true →
      s.mayBring job rank dst.toNat i = true → i.launch = false →
      exec (.convoyTransfer (.bring job rank port dst i true)) s
        = .next (i.pages.foldl (fun s p => s.homeWrite p.1.toNat p.2) (s.homeWrite (dst.toNat + 2) [0])) ∧
      ∃ u, exec (.convoyTransfer (.bring job rank port dst i false)) s = .next u ∧
        ∃ p ∈ u.parked, p.job = job ∧ p.rank = rank ∧ p.live = false ∧ p.save = dst)
end

