-- ==== Sys2Proof/Laws/Memory.lean ====
section
/-! SUPPORT. Laws of the sparse byte memory: what a read finds after a write, and that every memory operation keeps the
canonical form `memWf`. -/

namespace Sys2Proof.Machine

/-! ## Sorted lists of cells -/

theorem sortedFrom_mono {α : Type} (m : List (Nat × α)) {lo lo' : Nat} (h : lo' ≤ lo) (hm : sortedFrom m lo = true) :
    sortedFrom m lo' = true := by
  cases m with
  | nil => rfl
  | cons c m =>
    simp only [sortedFrom, Bool.and_eq_true, decide_eq_true_eq] at hm ⊢
    exact ⟨le_trans h hm.1, hm.2⟩

theorem find_of_lt {α : Type} (m : List (Nat × α)) {lo k : Nat} (hm : sortedFrom m lo = true) (hk : k < lo) :
    find m k = none := by
  cases m with
  | nil => rfl
  | cons c m =>
    simp only [sortedFrom, Bool.and_eq_true, decide_eq_true_eq] at hm
    simp only [find, if_pos (lt_of_lt_of_le hk hm.1)]

theorem find_insertAt_same {α : Type} (m : List (Nat × α)) (k : Nat) (v : α) : find (insertAt m k v) k = some v := by
  induction m with
  | nil => simp [insertAt, find]
  | cons c m ih =>
    obtain ⟨j, w⟩ := c
    simp only [insertAt]
    split
    · simp [find]
    · split
      · simp [find]
      · simp [find, *]

theorem find_insertAt_other {α : Type} (m : List (Nat × α)) {k a : Nat} (v : α) (h : a ≠ k) :
    find (insertAt m k v) a = find m a := by
  induction m with
  | nil => simp [insertAt, find, h]
  | cons c m ih =>
    obtain ⟨j, w⟩ := c
    simp only [insertAt]
    split
    · simp only [find]
      split
      · rw [if_pos (by omega)]
      · rfl
    · split
      · subst_vars
        simp only [find, if_neg h]
      · simp only [find, ih]

theorem sortedFrom_insertAt {α : Type} (m : List (Nat × α)) {lo k : Nat} (v : α) (hk : lo ≤ k)
    (hm : sortedFrom m lo = true) : sortedFrom (insertAt m k v) lo = true := by
  induction m generalizing lo with
  | nil => simp [insertAt, sortedFrom, hk]
  | cons c m ih =>
    obtain ⟨j, w⟩ := c
    simp only [sortedFrom, Bool.and_eq_true, decide_eq_true_eq] at hm
    simp only [insertAt]
    split
    · simp only [sortedFrom, Bool.and_eq_true, decide_eq_true_eq]
      exact ⟨hk, by omega, hm.2⟩
    · split
      · subst_vars
        simp only [sortedFrom, Bool.and_eq_true, decide_eq_true_eq]
        exact hm
      · simp only [sortedFrom, Bool.and_eq_true, decide_eq_true_eq]
        exact ⟨hm.1, ih (by omega) hm.2⟩

theorem sortedFrom_eraseAt {α : Type} (m : List (Nat × α)) {lo : Nat} (k : Nat) (hm : sortedFrom m lo = true) :
    sortedFrom (eraseAt m k) lo = true := by
  induction m generalizing lo with
  | nil => rfl
  | cons c m ih =>
    obtain ⟨j, w⟩ := c
    have hm' := hm
    simp only [sortedFrom, Bool.and_eq_true, decide_eq_true_eq] at hm'
    simp only [eraseAt]
    split
    · exact hm
    · split
      · exact sortedFrom_mono m (by omega) hm'.2
      · simp only [sortedFrom, Bool.and_eq_true, decide_eq_true_eq]
        exact ⟨hm'.1, ih hm'.2⟩

theorem find_eraseAt_same {α : Type} (m : List (Nat × α)) {lo : Nat} (k : Nat) (hm : sortedFrom m lo = true) :
    find (eraseAt m k) k = none := by
  induction m generalizing lo with
  | nil => rfl
  | cons c m ih =>
    obtain ⟨j, w⟩ := c
    simp only [sortedFrom, Bool.and_eq_true, decide_eq_true_eq] at hm
    simp only [eraseAt]
    split
    · simp [find, *]
    · split
      · exact find_of_lt m hm.2 (by omega)
      · rename_i h1 h2
        simp only [find, if_neg h1, if_neg h2]
        exact ih hm.2

theorem find_eraseAt_other {α : Type} (m : List (Nat × α)) {lo k a : Nat} (h : a ≠ k) (hm : sortedFrom m lo = true) :
    find (eraseAt m k) a = find m a := by
  induction m generalizing lo with
  | nil => rfl
  | cons c m ih =>
    obtain ⟨j, w⟩ := c
    simp only [sortedFrom, Bool.and_eq_true, decide_eq_true_eq] at hm
    simp only [eraseAt]
    split
    · rfl
    · split
      · rename_i h1 h2
        subst h2
        simp only [find, if_neg h]
        split
        · exact find_of_lt m hm.2 (by omega)
        · rfl
      · simp only [find, ih hm.2]

/-! ## Bytes -/

theorem memWf_sorted {m : List Host.Cell} (h : memWf m = true) : sortedFrom m 0 = true := by
  simp only [memWf, Bool.and_eq_true] at h
  exact h.1

theorem readByte_writeByte_same (m : List Host.Cell) (a : Nat) (v : Byte) (h : memWf m = true) :
    readByte (writeByte m a v) a = v := by
  simp only [readByte, writeByte]
  split
  · rw [find_eraseAt_same m a (memWf_sorted h)]
    simp [*]
  · rw [find_insertAt_same]
    rfl

theorem readByte_writeByte_other (m : List Host.Cell) {a b : Nat} (v : Byte) (h : memWf m = true) (hab : b ≠ a) :
    readByte (writeByte m a v) b = readByte m b := by
  simp only [readByte, writeByte]
  split
  · rw [find_eraseAt_other m hab (memWf_sorted h)]
  · rw [find_insertAt_other m v hab]

theorem mem_insertAt {α : Type} (m : List (Nat × α)) (k : Nat) (v : α) (c : Nat × α) (h : c ∈ insertAt m k v) :
    c = (k, v) ∨ c ∈ m := by
  induction m with
  | nil => simpa [insertAt] using h
  | cons d m ih =>
    obtain ⟨j, w⟩ := d
    simp only [insertAt] at h
    split at h
    · simpa using h
    · split at h
      · simp only [List.mem_cons] at h ⊢
        tauto
      · simp only [List.mem_cons] at h ⊢
        rcases h with h | h
        · exact .inr (.inl h)
        · rcases ih h with h | h
          · exact .inl h
          · exact .inr (.inr h)

theorem mem_eraseAt {α : Type} (m : List (Nat × α)) (k : Nat) (c : Nat × α) (h : c ∈ eraseAt m k) : c ∈ m := by
  induction m with
  | nil => simp [eraseAt] at h
  | cons d m ih =>
    obtain ⟨j, w⟩ := d
    simp only [eraseAt] at h
    split at h
    · exact h
    · split at h
      · exact List.mem_cons_of_mem _ h
      · simp only [List.mem_cons] at h ⊢
        exact h.imp id ih

/-- A write of a byte keeps the canonical form. -/
theorem memWf_writeByte (m : List Host.Cell) (a : Nat) (v : Byte) (h : memWf m = true) : memWf (writeByte m a v) = true := by
  simp only [memWf, Bool.and_eq_true, List.all_eq_true] at h ⊢
  simp only [writeByte]
  split
  · exact ⟨sortedFrom_eraseAt m a h.1, fun c hc => h.2 c (mem_eraseAt m a c hc)⟩
  · refine ⟨sortedFrom_insertAt m v (Nat.zero_le a) h.1, fun c hc => ?_⟩
    rcases mem_insertAt m a v c hc with rfl | hc
    · simpa using ‹¬v = 0›
    · exact h.2 c hc

/-- A write of bytes keeps the canonical form. -/
theorem memWf_writeBytes (bs : List Byte) (m : List Host.Cell) (a : Nat) (h : memWf m = true) :
    memWf (writeBytes m a bs) = true := by
  induction bs generalizing m a with
  | nil => exact h
  | cons b bs ih => exact ih _ _ (memWf_writeByte m a b h)

theorem readByte_writeBytes_outside (bs : List Byte) (m : List Host.Cell) {a k : Nat} (h : memWf m = true)
    (hk : k < a ∨ a + bs.length ≤ k) : readByte (writeBytes m a bs) k = readByte m k := by
  induction bs generalizing m a with
  | nil => rfl
  | cons b bs ih =>
    simp only [List.length_cons] at hk
    simp only [writeBytes]
    rw [ih _ (memWf_writeByte m a b h) (by omega), readByte_writeByte_other m b h (by omega)]

theorem readByte_writeBytes_inside (bs : List Byte) (m : List Host.Cell) {a : Nat} (h : memWf m = true) {i : Nat}
    (hi : i < bs.length) : readByte (writeBytes m a bs) (a + i) = bs[i] := by
  induction bs generalizing m a i with
  | nil => simp at hi
  | cons b bs ih =>
    simp only [writeBytes]
    cases i with
    | zero =>
      rw [readByte_writeBytes_outside bs _ (memWf_writeByte m a b h) (by omega)]
      simpa using readByte_writeByte_same m a b h
    | succ i =>
      have := ih (writeByte m a b) (a := a + 1) (memWf_writeByte m a b h) (i := i) (by simpa using hi)
      rw [show a + (i + 1) = a + 1 + i by omega, this]
      rfl

/-- Equal memories are equal data: two memories in canonical form that read alike everywhere are one list. -/
theorem memWf_ext {m n : List Host.Cell} {lo : Nat} (hm : sortedFrom m lo = true) (hn : sortedFrom n lo = true)
    (zm : ∀ c ∈ m, c.2 ≠ 0#8) (zn : ∀ c ∈ n, c.2 ≠ 0#8) (h : ∀ a, readByte m a = readByte n a) : m = n := by
  induction m generalizing n lo with
  | nil =>
    cases n with
    | nil => rfl
    | cons d n =>
      have := h d.1
      simp only [readByte, find, Option.getD_none, lt_irrefl, if_false, if_true, Option.getD_some] at this
      exact absurd this.symm (zn d (by simp))
  | cons c m ih =>
    cases n with
    | nil =>
      have := h c.1
      simp only [readByte, find, Option.getD_none, lt_irrefl, if_false, if_true, Option.getD_some] at this
      exact absurd this (zm c (by simp))
    | cons d n =>
      obtain ⟨j, v⟩ := c
      obtain ⟨k, w⟩ := d
      simp only [sortedFrom, Bool.and_eq_true, decide_eq_true_eq] at hm hn
      have hjk : j = k := by
        rcases Nat.lt_trichotomy j k with hlt | heq | hgt
        · have := h j
          simp only [readByte, find, lt_irrefl, if_false, if_true, Option.getD_some, if_pos hlt, Option.getD_none] at this
          exact absurd this (zm (j, v) (by simp))
        · exact heq
        · have := h k
          simp only [readByte, find, lt_irrefl, if_false, if_true, Option.getD_some, if_pos hgt, Option.getD_none] at this
          exact absurd this.symm (zn (k, w) (by simp))
      subst hjk
      have hvw : v = w := by simpa [readByte, find] using h j
      subst hvw
      rw [ih hm.2 hn.2 (fun c hc => zm c (by simp [hc])) (fun c hc => zn c (by simp [hc]))]
      intro a
      have := h a
      simp only [readByte, find] at this ⊢
      by_cases h1 : a < j
      · rw [find_of_lt m hm.2 (by omega), find_of_lt n hn.2 (by omega)]
      · by_cases h2 : a = j
        · rw [find_of_lt m hm.2 (by omega), find_of_lt n hn.2 (by omega)]
        · simpa [h1, h2] using this

/-! ## Stores at home -/

@[simp] theorem wrote_mem (s : State) (no : Nat) : (s.wrote no).mem = s.mem := rfl
@[simp] theorem wrote_dies (s : State) (no : Nat) : (s.wrote no).dies = s.dies := rfl
@[simp] theorem wrote_bays (s : State) (no : Nat) : (s.wrote no).bays = s.bays := rfl
@[simp] theorem dropDieLine_mem (s : State) (no : Nat) : (s.dropDieLine no).mem = s.mem := rfl
@[simp] theorem setMemLine_dies (s : State) (no : Nat) (d : BitVec 1024) : (s.setMemLine no d).dies = s.dies := rfl
@[simp] theorem setMemLine_bays (s : State) (no : Nat) (d : BitVec 1024) : (s.setMemLine no d).bays = s.bays := rfl

theorem memWf_setMemLine (s : State) (no : Nat) (d : BitVec 1024) (h : memWf s.mem = true) :
    memWf (s.setMemLine no d).mem = true := memWf_writeBytes _ _ _ h

/-- A cached line's write-back keeps the canonical form. -/
theorem memWf_lineToMem (s : State) (l : Line) (h : memWf s.mem = true) : memWf (s.lineToMem l).mem = true := by
  simp only [State.lineToMem]
  split
  · exact memWf_setMemLine _ _ _ h
  · exact h

/-- A line placed in a die cache, which may send another to memory, keeps the canonical form. -/
theorem memWf_placeDie (s : State) (l : Line) (h : memWf s.mem = true) : memWf (s.placeDie l).mem = true := by
  simp only [State.placeDie]
  split
  · exact h
  · exact memWf_lineToMem _ _ h

theorem memWf_setDieLine (s : State) (l : Line) (h : memWf s.mem = true) : memWf (s.setDieLine l).mem = true := by
  simp only [State.setDieLine]
  split
  · exact memWf_placeDie _ _ h
  · exact memWf_placeDie _ _ h

theorem memWf_storeHome (s : State) (no : Nat) (d : BitVec 1024) (mask : BitVec 128) (h : memWf s.mem = true) :
    memWf (s.storeHome no d mask).mem = true := by
  simp only [State.storeHome]
  split
  · split
    · exact memWf_setDieLine _ _ h
    · split
      · exact memWf_setMemLine _ _ _ h
      · exact memWf_setDieLine _ _ (memWf_setMemLine _ _ _ h)
  · exact memWf_setMemLine s no d h

theorem memWf_storeHomeSeg (s : State) (q : Nat × Nat × List Byte) (h : memWf s.mem = true) :
    memWf (s.storeHomeSeg q).mem = true := memWf_storeHome _ _ _ _ h

/-- A store at home keeps the canonical form. -/
theorem memWf_homeWrite (s : State) (loc : Nat) (bs : List Byte) (h : memWf s.mem = true) :
    memWf (s.homeWrite loc bs).mem = true := by
  suffices ∀ (qs : List (Nat × Nat × List Byte)) (s : State), memWf s.mem = true →
      memWf (qs.foldl State.storeHomeSeg s).mem = true from this _ s h
  intro qs
  induction qs with
  | nil => exact fun _ h => h
  | cons q qs ih => exact fun s h => ih _ (memWf_storeHomeSeg s q h)

/-- The memory of reset is in canonical form. -/
theorem memWf_reset : memWf State.reset.mem = true := rfl

/-! ## Numbers at home -/

theorem leBytes_zero (n : Nat) : leBytes n 0 = List.replicate n 0 := by
  induction n with
  | zero => rfl
  | succ n ih => simp [leBytes, ih, List.replicate_succ]

theorem leNat_zeros (n : Nat) : leNat (List.replicate n 0#8) = 0 := by
  induction n with
  | zero => rfl
  | succ n ih => simp [List.replicate_succ, leNat, ih]

/-- A number that lies in one line of zeros at its home reads 0. -/
theorem homeLe_zero (s : State) (loc n : Nat) (h : (loc + n + 127) / 128 - loc / 128 = 1) (hz : (s.homeLine (loc / 128)).data = 0) :
    (s.homeLe loc n).1 = 0 := by
  obtain ⟨k, hb⟩ : ∃ k, lineBytes (0#1024) 0 128 = List.replicate k 0#8 := ⟨128, by simp [lineBytes, leBytes_zero]⟩
  simp [State.homeLe, State.homeRead, h, hz, hb, leNat_zeros]

end Sys2Proof.Machine
end

