-- ==== Sys2Proof/Laws/State.lean ====
section
/-! SUPPORT. Laws of the state's updates: what each leaves of each field. -/

namespace Sys2Proof.Machine

/-! ## Files -/

@[simp] theorem nth_put_same {α : Type} {n : Nat} (v : Vector α n) (i : Nat) (x d : α) (h : i < n) :
    nth (put v i x) i d = x := by
  simp [nth, put, h]

@[simp] theorem nth_put_other {α : Type} {n : Nat} (v : Vector α n) {i j : Nat} (x d : α) (h : i ≠ j) :
    nth (put v i x) j d = nth v j d := by
  simp [nth, put, h]

theorem put_of_size {α : Type} {n : Nat} (v : Vector α n) (i : Nat) (x : α) (h : n ≤ i) : put v i x = v := by
  simp [put, Vector.setIfInBounds_eq_of_size_le h]

theorem nth_of_size {α : Type} {n : Nat} (v : Vector α n) (i : Nat) (d : α) (h : n ≤ i) : nth v i d = d := by
  simp [nth, h]

theorem put_nth {α : Type} {n : Nat} (v : Vector α n) (i : Nat) (d : α) : put v i (nth v i d) = v := by
  by_cases h : i < n
  · ext j hj
    simp only [put, nth, Vector.getElem?_eq_getElem h, Option.getD_some]
    rw [Vector.getElem_setIfInBounds]
    split
    · subst_vars; rfl
    · rfl
  · exact put_of_size v i _ (by omega)


/-! ## The fields of the state -/

@[simp] theorem setBay_wc (s : State) (b : Nat) (y : Bay) : (s.setBay b y).wc = s.wc := rfl
@[simp] theorem setBay_turn (s : State) (b : Nat) (y : Bay) : (s.setBay b y).turn = s.turn := rfl
@[simp] theorem setBay_core (s : State) (b : Nat) (y : Bay) : (s.setBay b y).core = s.core := rfl
@[simp] theorem setBay_agenda (s : State) (b : Nat) (y : Bay) : (s.setBay b y).agenda = s.agenda := rfl
@[simp] theorem setBay_free (s : State) (b : Nat) (y : Bay) : (s.setBay b y).free = s.free := rfl
@[simp] theorem setBay_phase (s : State) (b : Nat) (y : Bay) : (s.setBay b y).phase = s.phase := rfl
@[simp] theorem setBay_mem (s : State) (b : Nat) (y : Bay) : (s.setBay b y).mem = s.mem := rfl
@[simp] theorem setBay_badLines (s : State) (b : Nat) (y : Bay) : (s.setBay b y).badLines = s.badLines := rfl
@[simp] theorem setBay_dies (s : State) (b : Nat) (y : Bay) : (s.setBay b y).dies = s.dies := rfl
@[simp] theorem setBay_desc (s : State) (b : Nat) (y : Bay) : (s.setBay b y).desc = s.desc := rfl
@[simp] theorem setBay_jobs (s : State) (b : Nat) (y : Bay) : (s.setBay b y).jobs = s.jobs := rfl
@[simp] theorem setBay_snapshots (s : State) (b : Nat) (y : Bay) : (s.setBay b y).snapshots = s.snapshots := rfl
@[simp] theorem setBay_ftime (s : State) (b : Nat) (y : Bay) : (s.setBay b y).ftime = s.ftime := rfl
@[simp] theorem setBay_acquired (s : State) (b : Nat) (y : Bay) : (s.setBay b y).acquired = s.acquired := rfl
@[simp] theorem setBay_power (s : State) (b : Nat) (y : Bay) : (s.setBay b y).power = s.power := rfl
@[simp] theorem setBay_doorbell (s : State) (b : Nat) (y : Bay) : (s.setBay b y).doorbell = s.doorbell := rfl
@[simp] theorem setBay_mailbox (s : State) (b : Nat) (y : Bay) : (s.setBay b y).mailbox = s.mailbox := rfl
@[simp] theorem setBay_flash (s : State) (b : Nat) (y : Bay) : (s.setBay b y).flash = s.flash := rfl
@[simp] theorem setBay_ports (s : State) (b : Nat) (y : Bay) : (s.setBay b y).ports = s.ports := rfl
@[simp] theorem setBay_cxlSize (s : State) (b : Nat) (y : Bay) : (s.setBay b y).cxlSize = s.cxlSize := rfl
@[simp] theorem setBay_compSize (s : State) (b : Nat) (y : Bay) : (s.setBay b y).compSize = s.compSize := rfl
@[simp] theorem setBay_hostBias (s : State) (b : Nat) (y : Bay) : (s.setBay b y).hostBias = s.hostBias := rfl
@[simp] theorem setBay_parked (s : State) (b : Nat) (y : Bay) : (s.setBay b y).parked = s.parked := rfl
@[simp] theorem setBay_fphase (s : State) (b : Nat) (y : Bay) : (s.setBay b y).fphase = s.fphase := rfl
@[simp] theorem setBay_timeRoot (s : State) (b : Nat) (y : Bay) : (s.setBay b y).timeRoot = s.timeRoot := rfl
@[simp] theorem setBay_ptp (s : State) (b : Nat) (y : Bay) : (s.setBay b y).ptp = s.ptp := rfl
@[simp] theorem setBay_settings (s : State) (b : Nat) (y : Bay) : (s.setBay b y).settings = s.settings := rfl
@[simp] theorem setBay_mirrorPort (s : State) (b : Nat) (y : Bay) : (s.setBay b y).mirrorPort = s.mirrorPort := rfl
@[simp] theorem setBay_rootPort (s : State) (b : Nat) (y : Bay) : (s.setBay b y).rootPort = s.rootPort := rfl
@[simp] theorem setBay_updates (s : State) (b : Nat) (y : Bay) : (s.setBay b y).updates = s.updates := rfl
@[simp] theorem setBay_horizons (s : State) (b : Nat) (y : Bay) : (s.setBay b y).horizons = s.horizons := rfl
@[simp] theorem setBay_published (s : State) (b : Nat) (y : Bay) : (s.setBay b y).published = s.published := rfl
@[simp] theorem setBay_stewards (s : State) (b : Nat) (y : Bay) : (s.setBay b y).stewards = s.stewards := rfl
@[simp] theorem setSteward_wc (s : State) (k : Nat) (w : Steward) : (s.setSteward k w).wc = s.wc := rfl
@[simp] theorem setSteward_turn (s : State) (k : Nat) (w : Steward) : (s.setSteward k w).turn = s.turn := rfl
@[simp] theorem setSteward_core (s : State) (k : Nat) (w : Steward) : (s.setSteward k w).core = s.core := rfl
@[simp] theorem setSteward_agenda (s : State) (k : Nat) (w : Steward) : (s.setSteward k w).agenda = s.agenda := rfl
@[simp] theorem setSteward_free (s : State) (k : Nat) (w : Steward) : (s.setSteward k w).free = s.free := rfl
@[simp] theorem setSteward_phase (s : State) (k : Nat) (w : Steward) : (s.setSteward k w).phase = s.phase := rfl
@[simp] theorem setSteward_mem (s : State) (k : Nat) (w : Steward) : (s.setSteward k w).mem = s.mem := rfl
@[simp] theorem setSteward_badLines (s : State) (k : Nat) (w : Steward) : (s.setSteward k w).badLines = s.badLines := rfl
@[simp] theorem setSteward_dies (s : State) (k : Nat) (w : Steward) : (s.setSteward k w).dies = s.dies := rfl
@[simp] theorem setSteward_desc (s : State) (k : Nat) (w : Steward) : (s.setSteward k w).desc = s.desc := rfl
@[simp] theorem setSteward_jobs (s : State) (k : Nat) (w : Steward) : (s.setSteward k w).jobs = s.jobs := rfl
@[simp] theorem setSteward_snapshots (s : State) (k : Nat) (w : Steward) : (s.setSteward k w).snapshots = s.snapshots := rfl
@[simp] theorem setSteward_ftime (s : State) (k : Nat) (w : Steward) : (s.setSteward k w).ftime = s.ftime := rfl
@[simp] theorem setSteward_acquired (s : State) (k : Nat) (w : Steward) : (s.setSteward k w).acquired = s.acquired := rfl
@[simp] theorem setSteward_power (s : State) (k : Nat) (w : Steward) : (s.setSteward k w).power = s.power := rfl
@[simp] theorem setSteward_doorbell (s : State) (k : Nat) (w : Steward) : (s.setSteward k w).doorbell = s.doorbell := rfl
@[simp] theorem setSteward_mailbox (s : State) (k : Nat) (w : Steward) : (s.setSteward k w).mailbox = s.mailbox := rfl
@[simp] theorem setSteward_flash (s : State) (k : Nat) (w : Steward) : (s.setSteward k w).flash = s.flash := rfl
@[simp] theorem setSteward_ports (s : State) (k : Nat) (w : Steward) : (s.setSteward k w).ports = s.ports := rfl
@[simp] theorem setSteward_cxlSize (s : State) (k : Nat) (w : Steward) : (s.setSteward k w).cxlSize = s.cxlSize := rfl
@[simp] theorem setSteward_compSize (s : State) (k : Nat) (w : Steward) : (s.setSteward k w).compSize = s.compSize := rfl
@[simp] theorem setSteward_hostBias (s : State) (k : Nat) (w : Steward) : (s.setSteward k w).hostBias = s.hostBias := rfl
@[simp] theorem setSteward_parked (s : State) (k : Nat) (w : Steward) : (s.setSteward k w).parked = s.parked := rfl
@[simp] theorem setSteward_fphase (s : State) (k : Nat) (w : Steward) : (s.setSteward k w).fphase = s.fphase := rfl
@[simp] theorem setSteward_timeRoot (s : State) (k : Nat) (w : Steward) : (s.setSteward k w).timeRoot = s.timeRoot := rfl
@[simp] theorem setSteward_ptp (s : State) (k : Nat) (w : Steward) : (s.setSteward k w).ptp = s.ptp := rfl
@[simp] theorem setSteward_settings (s : State) (k : Nat) (w : Steward) : (s.setSteward k w).settings = s.settings := rfl
@[simp] theorem setSteward_mirrorPort (s : State) (k : Nat) (w : Steward) : (s.setSteward k w).mirrorPort = s.mirrorPort := rfl
@[simp] theorem setSteward_rootPort (s : State) (k : Nat) (w : Steward) : (s.setSteward k w).rootPort = s.rootPort := rfl
@[simp] theorem setSteward_updates (s : State) (k : Nat) (w : Steward) : (s.setSteward k w).updates = s.updates := rfl
@[simp] theorem setSteward_horizons (s : State) (k : Nat) (w : Steward) : (s.setSteward k w).horizons = s.horizons := rfl
@[simp] theorem setSteward_published (s : State) (k : Nat) (w : Steward) : (s.setSteward k w).published = s.published := rfl
@[simp] theorem setSteward_bays (s : State) (k : Nat) (w : Steward) : (s.setSteward k w).bays = s.bays := rfl
@[simp] theorem setTile_wc (s : State) (b x : Nat) (t : Tile) : (s.setTile b x t).wc = s.wc := rfl
@[simp] theorem setTile_turn (s : State) (b x : Nat) (t : Tile) : (s.setTile b x t).turn = s.turn := rfl
@[simp] theorem setTile_core (s : State) (b x : Nat) (t : Tile) : (s.setTile b x t).core = s.core := rfl
@[simp] theorem setTile_agenda (s : State) (b x : Nat) (t : Tile) : (s.setTile b x t).agenda = s.agenda := rfl
@[simp] theorem setTile_free (s : State) (b x : Nat) (t : Tile) : (s.setTile b x t).free = s.free := rfl
@[simp] theorem setTile_phase (s : State) (b x : Nat) (t : Tile) : (s.setTile b x t).phase = s.phase := rfl
@[simp] theorem setTile_mem (s : State) (b x : Nat) (t : Tile) : (s.setTile b x t).mem = s.mem := rfl
@[simp] theorem setTile_badLines (s : State) (b x : Nat) (t : Tile) : (s.setTile b x t).badLines = s.badLines := rfl
@[simp] theorem setTile_dies (s : State) (b x : Nat) (t : Tile) : (s.setTile b x t).dies = s.dies := rfl
@[simp] theorem setTile_desc (s : State) (b x : Nat) (t : Tile) : (s.setTile b x t).desc = s.desc := rfl
@[simp] theorem setTile_jobs (s : State) (b x : Nat) (t : Tile) : (s.setTile b x t).jobs = s.jobs := rfl
@[simp] theorem setTile_snapshots (s : State) (b x : Nat) (t : Tile) : (s.setTile b x t).snapshots = s.snapshots := rfl
@[simp] theorem setTile_ftime (s : State) (b x : Nat) (t : Tile) : (s.setTile b x t).ftime = s.ftime := rfl
@[simp] theorem setTile_acquired (s : State) (b x : Nat) (t : Tile) : (s.setTile b x t).acquired = s.acquired := rfl
@[simp] theorem setTile_power (s : State) (b x : Nat) (t : Tile) : (s.setTile b x t).power = s.power := rfl
@[simp] theorem setTile_doorbell (s : State) (b x : Nat) (t : Tile) : (s.setTile b x t).doorbell = s.doorbell := rfl
@[simp] theorem setTile_mailbox (s : State) (b x : Nat) (t : Tile) : (s.setTile b x t).mailbox = s.mailbox := rfl
@[simp] theorem setTile_flash (s : State) (b x : Nat) (t : Tile) : (s.setTile b x t).flash = s.flash := rfl
@[simp] theorem setTile_ports (s : State) (b x : Nat) (t : Tile) : (s.setTile b x t).ports = s.ports := rfl
@[simp] theorem setTile_cxlSize (s : State) (b x : Nat) (t : Tile) : (s.setTile b x t).cxlSize = s.cxlSize := rfl
@[simp] theorem setTile_compSize (s : State) (b x : Nat) (t : Tile) : (s.setTile b x t).compSize = s.compSize := rfl
@[simp] theorem setTile_hostBias (s : State) (b x : Nat) (t : Tile) : (s.setTile b x t).hostBias = s.hostBias := rfl
@[simp] theorem setTile_parked (s : State) (b x : Nat) (t : Tile) : (s.setTile b x t).parked = s.parked := rfl
@[simp] theorem setTile_fphase (s : State) (b x : Nat) (t : Tile) : (s.setTile b x t).fphase = s.fphase := rfl
@[simp] theorem setTile_timeRoot (s : State) (b x : Nat) (t : Tile) : (s.setTile b x t).timeRoot = s.timeRoot := rfl
@[simp] theorem setTile_ptp (s : State) (b x : Nat) (t : Tile) : (s.setTile b x t).ptp = s.ptp := rfl
@[simp] theorem setTile_settings (s : State) (b x : Nat) (t : Tile) : (s.setTile b x t).settings = s.settings := rfl
@[simp] theorem setTile_mirrorPort (s : State) (b x : Nat) (t : Tile) : (s.setTile b x t).mirrorPort = s.mirrorPort := rfl
@[simp] theorem setTile_rootPort (s : State) (b x : Nat) (t : Tile) : (s.setTile b x t).rootPort = s.rootPort := rfl
@[simp] theorem setTile_updates (s : State) (b x : Nat) (t : Tile) : (s.setTile b x t).updates = s.updates := rfl
@[simp] theorem setTile_horizons (s : State) (b x : Nat) (t : Tile) : (s.setTile b x t).horizons = s.horizons := rfl
@[simp] theorem setTile_published (s : State) (b x : Nat) (t : Tile) : (s.setTile b x t).published = s.published := rfl
@[simp] theorem setTile_stewards (s : State) (b x : Nat) (t : Tile) : (s.setTile b x t).stewards = s.stewards := rfl

@[simp] theorem bay_setBay_same (s : State) (b : Nat) (y : Bay) (h : b < 8) : (s.setBay b y).bay b = y := by
  simp [State.bay, State.setBay, h]

@[simp] theorem bay_setBay_other (s : State) {b c : Nat} (y : Bay) (h : b ≠ c) : (s.setBay b y).bay c = s.bay c := by
  simp [State.bay, State.setBay, h]

@[simp] theorem steward_setSteward_same (s : State) (k : Nat) (w : Steward) (h : k < 9) :
    (s.setSteward k w).steward k = w := by
  simp [State.steward, State.setSteward, h]

@[simp] theorem steward_setSteward_other (s : State) {k j : Nat} (w : Steward) (h : k ≠ j) :
    (s.setSteward k w).steward j = s.steward j := by
  simp [State.steward, State.setSteward, h]

@[simp] theorem bay_setSteward (s : State) (k b : Nat) (w : Steward) : (s.setSteward k w).bay b = s.bay b := rfl
@[simp] theorem steward_setBay (s : State) (b k : Nat) (y : Bay) : (s.setBay b y).steward k = s.steward k := rfl
@[simp] theorem steward_setTile (s : State) (b x k : Nat) (t : Tile) : (s.setTile b x t).steward k = s.steward k := rfl

/-! ## The fields of a bay and of a tile -/

@[simp] theorem Bay.setTile_service (y : Bay) (x : Nat) (t : Tile) : (y.setTile x t).service = y.service := rfl
@[simp] theorem Bay.setTile_phase (y : Bay) (x : Nat) (t : Tile) : (y.setTile x t).phase = y.phase := rfl
@[simp] theorem Bay.setTile_tclk (y : Bay) (x : Nat) (t : Tile) : (y.setTile x t).tclk = y.tclk := rfl
@[simp] theorem Bay.setTile_wclk (y : Bay) (x : Nat) (t : Tile) : (y.setTile x t).wclk = y.wclk := rfl
@[simp] theorem Bay.setTile_frzc (y : Bay) (x : Nat) (t : Tile) : (y.setTile x t).frzc = y.frzc := rfl
@[simp] theorem Bay.setTile_rankid (y : Bay) (x : Nat) (t : Tile) : (y.setTile x t).rankid = y.rankid := rfl
@[simp] theorem Bay.setTile_nrank (y : Bay) (x : Nat) (t : Tile) : (y.setTile x t).nrank = y.nrank := rfl
@[simp] theorem Bay.setTile_nstage (y : Bay) (x : Nat) (t : Tile) : (y.setTile x t).nstage = y.nstage := rfl
@[simp] theorem Bay.setTile_detm (y : Bay) (x : Nat) (t : Tile) : (y.setTile x t).detm = y.detm := rfl
@[simp] theorem Bay.setTile_seed (y : Bay) (x : Nat) (t : Tile) : (y.setTile x t).seed = y.seed := rfl
@[simp] theorem Bay.setTile_ptbase (y : Bay) (x : Nat) (t : Tile) : (y.setTile x t).ptbase = y.ptbase := rfl
@[simp] theorem Bay.setTile_fillthr (y : Bay) (x : Nat) (t : Tile) : (y.setTile x t).fillthr = y.fillthr := rfl
@[simp] theorem Bay.setTile_evact (y : Bay) (x : Nat) (t : Tile) : (y.setTile x t).evact = y.evact := rfl
@[simp] theorem Bay.setTile_step (y : Bay) (x : Nat) (t : Tile) : (y.setTile x t).step = y.step := rfl
@[simp] theorem Bay.setTile_job (y : Bay) (x : Nat) (t : Tile) : (y.setTile x t).job = y.job := rfl
@[simp] theorem Bay.setTile_filler (y : Bay) (x : Nat) (t : Tile) : (y.setTile x t).filler = y.filler := rfl
@[simp] theorem Bay.setTile_save (y : Bay) (x : Nat) (t : Tile) : (y.setTile x t).save = y.save := rfl
@[simp] theorem Bay.setTile_ico (y : Bay) (x : Nat) (t : Tile) : (y.setTile x t).ico = y.ico := rfl
@[simp] theorem Bay.setTile_entry (y : Bay) (x : Nat) (t : Tile) : (y.setTile x t).entry = y.entry := rfl
@[simp] theorem Bay.setTile_fnCount (y : Bay) (x : Nat) (t : Tile) : (y.setTile x t).fnCount = y.fnCount := rfl
@[simp] theorem Bay.setTile_arrived (y : Bay) (x : Nat) (t : Tile) : (y.setTile x t).arrived = y.arrived := rfl
@[simp] theorem Bay.setTile_completed (y : Bay) (x : Nat) (t : Tile) : (y.setTile x t).completed = y.completed := rfl
@[simp] theorem Bay.setTile_regions (y : Bay) (x : Nat) (t : Tile) : (y.setTile x t).regions = y.regions := rfl
@[simp] theorem Bay.setTile_resume (y : Bay) (x : Nat) (t : Tile) : (y.setTile x t).resume = y.resume := rfl
@[simp] theorem Bay.setTile_assigned (y : Bay) (x : Nat) (t : Tile) : (y.setTile x t).assigned = y.assigned := rfl
@[simp] theorem Bay.setTile_chosen (y : Bay) (x : Nat) (t : Tile) : (y.setTile x t).chosen = y.chosen := rfl
@[simp] theorem Bay.setTile_clocked (y : Bay) (x : Nat) (t : Tile) : (y.setTile x t).clocked = y.clocked := rfl
@[simp] theorem Bay.setTile_released (y : Bay) (x : Nat) (t : Tile) : (y.setTile x t).released = y.released := rfl
@[simp] theorem Bay.setTile_views (y : Bay) (x : Nat) (t : Tile) : (y.setTile x t).views = y.views := rfl
@[simp] theorem Bay.setTile_entering (y : Bay) (x : Nat) (t : Tile) : (y.setTile x t).entering = y.entering := rfl
@[simp] theorem Bay.setTile_posted (y : Bay) (x : Nat) (t : Tile) : (y.setTile x t).posted = y.posted := rfl
@[simp] theorem Bay.setTile_displaced (y : Bay) (x : Nat) (t : Tile) : (y.setTile x t).displaced = y.displaced := rfl
@[simp] theorem Bay.setTile_hot (y : Bay) (x : Nat) (t : Tile) : (y.setTile x t).hot = y.hot := rfl
@[simp] theorem Bay.setTile_tables (y : Bay) (x : Nat) (t : Tile) : (y.setTile x t).tables = y.tables := rfl
@[simp] theorem Bay.setTile_stepSafe (y : Bay) (x : Nat) (t : Tile) : (y.setTile x t).stepSafe = y.stepSafe := rfl
@[simp] theorem Bay.setTile_lost (y : Bay) (x : Nat) (t : Tile) : (y.setTile x t).lost = y.lost := rfl
@[simp] theorem Bay.setTile_sysFresh (y : Bay) (x : Nat) (t : Tile) : (y.setTile x t).sysFresh = y.sysFresh := rfl
@[simp] theorem Bay.setTile_spare (y : Bay) (x : Nat) (t : Tile) : (y.setTile x t).spare = y.spare := rfl
@[simp] theorem Bay.setTile_requests (y : Bay) (x : Nat) (t : Tile) : (y.setTile x t).requests = y.requests := rfl
@[simp] theorem Bay.setTile_freeze (y : Bay) (x : Nat) (t : Tile) : (y.setTile x t).freeze = y.freeze := rfl
@[simp] theorem Bay.setTile_throttle (y : Bay) (x : Nat) (t : Tile) : (y.setTile x t).throttle = y.throttle := rfl
@[simp] theorem Bay.setTile_safeAt (y : Bay) (x : Nat) (t : Tile) : (y.setTile x t).safeAt = y.safeAt := rfl
@[simp] theorem Bay.setTile_drained (y : Bay) (x : Nat) (t : Tile) : (y.setTile x t).drained = y.drained := rfl
@[simp] theorem Bay.setTile_imaged (y : Bay) (x : Nat) (t : Tile) : (y.setTile x t).imaged = y.imaged := rfl
@[simp] theorem Bay.setTile_entryFault (y : Bay) (x : Nat) (t : Tile) : (y.setTile x t).entryFault = y.entryFault := rfl
@[simp] theorem Bay.setTile_traps (y : Bay) (x : Nat) (t : Tile) : (y.setTile x t).traps = y.traps := rfl
@[simp] theorem Bay.setTile_trapTc (y : Bay) (x : Nat) (t : Tile) : (y.setTile x t).trapTc = y.trapTc := rfl
@[simp] theorem Bay.setTile_joints (y : Bay) (x : Nat) (t : Tile) : (y.setTile x t).joints = y.joints := rfl
@[simp] theorem Bay.setTile_issued (y : Bay) (x : Nat) (t : Tile) : (y.setTile x t).issued = y.issued := rfl
@[simp] theorem Bay.setTile_sysq (y : Bay) (x : Nat) (t : Tile) : (y.setTile x t).sysq = y.sysq := rfl
@[simp] theorem Bay.setTile_energy (y : Bay) (x : Nat) (t : Tile) : (y.setTile x t).energy = y.energy := rfl
@[simp] theorem Bay.setTile_pm (y : Bay) (x : Nat) (t : Tile) : (y.setTile x t).pm = y.pm := rfl
@[simp] theorem Bay.setTile_launch (y : Bay) (x : Nat) (t : Tile) : (y.setTile x t).launch = y.launch := rfl
@[simp] theorem Bay.setTile_post (y : Bay) (x : Nat) (t : Tile) : (y.setTile x t).post = y.post := rfl
@[simp] theorem Bay.setTile_ep (y : Bay) (x : Nat) (t : Tile) : (y.setTile x t).ep = y.ep := rfl
@[simp] theorem Bay.setTile_clusters (y : Bay) (x : Nat) (t : Tile) : (y.setTile x t).clusters = y.clusters := rfl
@[simp] theorem Bay.setCluster_service (y : Bay) (c : Nat) (u : Cluster) : (y.setCluster c u).service = y.service := rfl
@[simp] theorem Bay.setCluster_phase (y : Bay) (c : Nat) (u : Cluster) : (y.setCluster c u).phase = y.phase := rfl
@[simp] theorem Bay.setCluster_tclk (y : Bay) (c : Nat) (u : Cluster) : (y.setCluster c u).tclk = y.tclk := rfl
@[simp] theorem Bay.setCluster_wclk (y : Bay) (c : Nat) (u : Cluster) : (y.setCluster c u).wclk = y.wclk := rfl
@[simp] theorem Bay.setCluster_frzc (y : Bay) (c : Nat) (u : Cluster) : (y.setCluster c u).frzc = y.frzc := rfl
@[simp] theorem Bay.setCluster_rankid (y : Bay) (c : Nat) (u : Cluster) : (y.setCluster c u).rankid = y.rankid := rfl
@[simp] theorem Bay.setCluster_nrank (y : Bay) (c : Nat) (u : Cluster) : (y.setCluster c u).nrank = y.nrank := rfl
@[simp] theorem Bay.setCluster_nstage (y : Bay) (c : Nat) (u : Cluster) : (y.setCluster c u).nstage = y.nstage := rfl
@[simp] theorem Bay.setCluster_detm (y : Bay) (c : Nat) (u : Cluster) : (y.setCluster c u).detm = y.detm := rfl
@[simp] theorem Bay.setCluster_seed (y : Bay) (c : Nat) (u : Cluster) : (y.setCluster c u).seed = y.seed := rfl
@[simp] theorem Bay.setCluster_ptbase (y : Bay) (c : Nat) (u : Cluster) : (y.setCluster c u).ptbase = y.ptbase := rfl
@[simp] theorem Bay.setCluster_fillthr (y : Bay) (c : Nat) (u : Cluster) : (y.setCluster c u).fillthr = y.fillthr := rfl
@[simp] theorem Bay.setCluster_evact (y : Bay) (c : Nat) (u : Cluster) : (y.setCluster c u).evact = y.evact := rfl
@[simp] theorem Bay.setCluster_step (y : Bay) (c : Nat) (u : Cluster) : (y.setCluster c u).step = y.step := rfl
@[simp] theorem Bay.setCluster_job (y : Bay) (c : Nat) (u : Cluster) : (y.setCluster c u).job = y.job := rfl
@[simp] theorem Bay.setCluster_filler (y : Bay) (c : Nat) (u : Cluster) : (y.setCluster c u).filler = y.filler := rfl
@[simp] theorem Bay.setCluster_save (y : Bay) (c : Nat) (u : Cluster) : (y.setCluster c u).save = y.save := rfl
@[simp] theorem Bay.setCluster_ico (y : Bay) (c : Nat) (u : Cluster) : (y.setCluster c u).ico = y.ico := rfl
@[simp] theorem Bay.setCluster_entry (y : Bay) (c : Nat) (u : Cluster) : (y.setCluster c u).entry = y.entry := rfl
@[simp] theorem Bay.setCluster_fnCount (y : Bay) (c : Nat) (u : Cluster) : (y.setCluster c u).fnCount = y.fnCount := rfl
@[simp] theorem Bay.setCluster_arrived (y : Bay) (c : Nat) (u : Cluster) : (y.setCluster c u).arrived = y.arrived := rfl
@[simp] theorem Bay.setCluster_completed (y : Bay) (c : Nat) (u : Cluster) : (y.setCluster c u).completed = y.completed := rfl
@[simp] theorem Bay.setCluster_regions (y : Bay) (c : Nat) (u : Cluster) : (y.setCluster c u).regions = y.regions := rfl
@[simp] theorem Bay.setCluster_resume (y : Bay) (c : Nat) (u : Cluster) : (y.setCluster c u).resume = y.resume := rfl
@[simp] theorem Bay.setCluster_assigned (y : Bay) (c : Nat) (u : Cluster) : (y.setCluster c u).assigned = y.assigned := rfl
@[simp] theorem Bay.setCluster_chosen (y : Bay) (c : Nat) (u : Cluster) : (y.setCluster c u).chosen = y.chosen := rfl
@[simp] theorem Bay.setCluster_clocked (y : Bay) (c : Nat) (u : Cluster) : (y.setCluster c u).clocked = y.clocked := rfl
@[simp] theorem Bay.setCluster_released (y : Bay) (c : Nat) (u : Cluster) : (y.setCluster c u).released = y.released := rfl
@[simp] theorem Bay.setCluster_views (y : Bay) (c : Nat) (u : Cluster) : (y.setCluster c u).views = y.views := rfl
@[simp] theorem Bay.setCluster_entering (y : Bay) (c : Nat) (u : Cluster) : (y.setCluster c u).entering = y.entering := rfl
@[simp] theorem Bay.setCluster_posted (y : Bay) (c : Nat) (u : Cluster) : (y.setCluster c u).posted = y.posted := rfl
@[simp] theorem Bay.setCluster_displaced (y : Bay) (c : Nat) (u : Cluster) : (y.setCluster c u).displaced = y.displaced := rfl
@[simp] theorem Bay.setCluster_hot (y : Bay) (c : Nat) (u : Cluster) : (y.setCluster c u).hot = y.hot := rfl
@[simp] theorem Bay.setCluster_tables (y : Bay) (c : Nat) (u : Cluster) : (y.setCluster c u).tables = y.tables := rfl
@[simp] theorem Bay.setCluster_stepSafe (y : Bay) (c : Nat) (u : Cluster) : (y.setCluster c u).stepSafe = y.stepSafe := rfl
@[simp] theorem Bay.setCluster_lost (y : Bay) (c : Nat) (u : Cluster) : (y.setCluster c u).lost = y.lost := rfl
@[simp] theorem Bay.setCluster_sysFresh (y : Bay) (c : Nat) (u : Cluster) : (y.setCluster c u).sysFresh = y.sysFresh := rfl
@[simp] theorem Bay.setCluster_spare (y : Bay) (c : Nat) (u : Cluster) : (y.setCluster c u).spare = y.spare := rfl
@[simp] theorem Bay.setCluster_requests (y : Bay) (c : Nat) (u : Cluster) : (y.setCluster c u).requests = y.requests := rfl
@[simp] theorem Bay.setCluster_freeze (y : Bay) (c : Nat) (u : Cluster) : (y.setCluster c u).freeze = y.freeze := rfl
@[simp] theorem Bay.setCluster_throttle (y : Bay) (c : Nat) (u : Cluster) : (y.setCluster c u).throttle = y.throttle := rfl
@[simp] theorem Bay.setCluster_safeAt (y : Bay) (c : Nat) (u : Cluster) : (y.setCluster c u).safeAt = y.safeAt := rfl
@[simp] theorem Bay.setCluster_drained (y : Bay) (c : Nat) (u : Cluster) : (y.setCluster c u).drained = y.drained := rfl
@[simp] theorem Bay.setCluster_imaged (y : Bay) (c : Nat) (u : Cluster) : (y.setCluster c u).imaged = y.imaged := rfl
@[simp] theorem Bay.setCluster_entryFault (y : Bay) (c : Nat) (u : Cluster) : (y.setCluster c u).entryFault = y.entryFault := rfl
@[simp] theorem Bay.setCluster_traps (y : Bay) (c : Nat) (u : Cluster) : (y.setCluster c u).traps = y.traps := rfl
@[simp] theorem Bay.setCluster_trapTc (y : Bay) (c : Nat) (u : Cluster) : (y.setCluster c u).trapTc = y.trapTc := rfl
@[simp] theorem Bay.setCluster_joints (y : Bay) (c : Nat) (u : Cluster) : (y.setCluster c u).joints = y.joints := rfl
@[simp] theorem Bay.setCluster_issued (y : Bay) (c : Nat) (u : Cluster) : (y.setCluster c u).issued = y.issued := rfl
@[simp] theorem Bay.setCluster_sysq (y : Bay) (c : Nat) (u : Cluster) : (y.setCluster c u).sysq = y.sysq := rfl
@[simp] theorem Bay.setCluster_energy (y : Bay) (c : Nat) (u : Cluster) : (y.setCluster c u).energy = y.energy := rfl
@[simp] theorem Bay.setCluster_pm (y : Bay) (c : Nat) (u : Cluster) : (y.setCluster c u).pm = y.pm := rfl
@[simp] theorem Bay.setCluster_launch (y : Bay) (c : Nat) (u : Cluster) : (y.setCluster c u).launch = y.launch := rfl
@[simp] theorem Bay.setCluster_post (y : Bay) (c : Nat) (u : Cluster) : (y.setCluster c u).post = y.post := rfl
@[simp] theorem Bay.setCluster_ep (y : Bay) (c : Nat) (u : Cluster) : (y.setCluster c u).ep = y.ep := rfl
@[simp] theorem Bay.setCluster_tiles (y : Bay) (c : Nat) (u : Cluster) : (y.setCluster c u).tiles = y.tiles := rfl
@[simp] theorem Tile.setStrm_rows (t : Tile) (k : Nat) (u : Strm) : (t.setStrm k u).rows = t.rows := rfl
@[simp] theorem Tile.setStrm_planes (t : Tile) (k : Nat) (u : Strm) : (t.setStrm k u).planes = t.planes := rfl
@[simp] theorem Tile.setStrm_slots (t : Tile) (k : Nat) (u : Strm) : (t.setStrm k u).slots = t.slots := rfl
@[simp] theorem Tile.setStrm_lines (t : Tile) (k : Nat) (u : Strm) : (t.setStrm k u).lines = t.lines := rfl
@[simp] theorem Tile.setStrm_fifo (t : Tile) (k : Nat) (u : Strm) : (t.setStrm k u).fifo = t.fifo := rfl
@[simp] theorem Tile.setStrm_lanes (t : Tile) (k : Nat) (u : Strm) : (t.setStrm k u).lanes = t.lanes := rfl
@[simp] theorem Tile.setStrm_oq (t : Tile) (k : Nat) (u : Strm) : (t.setStrm k u).oq = t.oq := rfl
@[simp] theorem Tile.setStrm_chans (t : Tile) (k : Nat) (u : Strm) : (t.setStrm k u).chans = t.chans := rfl
@[simp] theorem Tile.setStrm_inbox (t : Tile) (k : Nat) (u : Strm) : (t.setStrm k u).inbox = t.inbox := rfl
@[simp] theorem Tile.setStrm_arrived (t : Tile) (k : Nat) (u : Strm) : (t.setStrm k u).arrived = t.arrived := rfl
@[simp] theorem Tile.setStrm_toks (t : Tile) (k : Nat) (u : Strm) : (t.setStrm k u).toks = t.toks := rfl
@[simp] theorem Tile.setStrm_cmds (t : Tile) (k : Nat) (u : Strm) : (t.setStrm k u).cmds = t.cmds := rfl
@[simp] theorem Tile.setStrm_sems (t : Tile) (k : Nat) (u : Strm) : (t.setStrm k u).sems = t.sems := rfl
@[simp] theorem Tile.setStrm_mtxs (t : Tile) (k : Nat) (u : Strm) : (t.setStrm k u).mtxs = t.mtxs := rfl
@[simp] theorem Tile.setStrm_ev (t : Tile) (k : Nat) (u : Strm) : (t.setStrm k u).ev = t.ev := rfl
@[simp] theorem Tile.setStrm_evwin (t : Tile) (k : Nat) (u : Strm) : (t.setStrm k u).evwin = t.evwin := rfl
@[simp] theorem Tile.setStrm_evthr (t : Tile) (k : Nat) (u : Strm) : (t.setStrm k u).evthr = t.evthr := rfl
@[simp] theorem Tile.setStrm_soft (t : Tile) (k : Nat) (u : Strm) : (t.setStrm k u).soft = t.soft := rfl
@[simp] theorem Tile.setStrm_mx (t : Tile) (k : Nat) (u : Strm) : (t.setStrm k u).mx = t.mx := rfl
@[simp] theorem Tile.setStrm_mxReads (t : Tile) (k : Nat) (u : Strm) : (t.setStrm k u).mxReads = t.mxReads := rfl
@[simp] theorem Tile.setStrm_ports (t : Tile) (k : Nat) (u : Strm) : (t.setStrm k u).ports = t.ports := rfl
@[simp] theorem Tile.setStrm_pend (t : Tile) (k : Nat) (u : Strm) : (t.setStrm k u).pend = t.pend := rfl
@[simp] theorem Tile.setStrm_hist (t : Tile) (k : Nat) (u : Strm) : (t.setStrm k u).hist = t.hist := rfl
@[simp] theorem Tile.setStrm_early (t : Tile) (k : Nat) (u : Strm) : (t.setStrm k u).early = t.early := rfl
@[simp] theorem Tile.setStrm_lidx (t : Tile) (k : Nat) (u : Strm) : (t.setStrm k u).lidx = t.lidx := rfl
@[simp] theorem Tile.setStrm_stage (t : Tile) (k : Nat) (u : Strm) : (t.setStrm k u).stage = t.stage := rfl
@[simp] theorem Tile.setStrm_clid (t : Tile) (k : Nat) (u : Strm) : (t.setStrm k u).clid = t.clid := rfl
@[simp] theorem Tile.setStrm_watch (t : Tile) (k : Nat) (u : Strm) : (t.setStrm k u).watch = t.watch := rfl
@[simp] theorem Tile.setStrm_tid (t : Tile) (k : Nat) (u : Strm) : (t.setStrm k u).tid = t.tid := rfl

@[simp] theorem Bay.tile_setTile_same (y : Bay) (x : Nat) (t : Tile) (h : x < 128) : (y.setTile x t).tile x = t := by
  simp [Bay.tile, Bay.setTile, h]

@[simp] theorem Bay.tile_setTile_other (y : Bay) {x z : Nat} (t : Tile) (h : x ≠ z) : (y.setTile x t).tile z = y.tile z := by
  simp [Bay.tile, Bay.setTile, h]

@[simp] theorem Bay.tile_setCluster (y : Bay) (c x : Nat) (u : Cluster) : (y.setCluster c u).tile x = y.tile x := rfl
@[simp] theorem Bay.cluster_setTile (y : Bay) (c x : Nat) (t : Tile) : (y.setTile x t).cluster c = y.cluster c := rfl

@[simp] theorem Tile.strm_setStrm_same (t : Tile) (k : Nat) (u : Strm) (h : k < 9) : (t.setStrm k u).strm k = u := by
  simp [Tile.strm, Tile.setStrm, h]

@[simp] theorem Tile.strm_setStrm_other (t : Tile) {k j : Nat} (u : Strm) (h : k ≠ j) :
    (t.setStrm k u).strm j = t.strm j := by
  simp [Tile.strm, Tile.setStrm, h]

theorem tile_setTile_same (s : State) (b x : Nat) (t : Tile) (hb : b < 8) (hx : x < 128) :
    (s.setTile b x t).tile b x = t := by
  simp [State.tile, State.setTile, hb, hx]

theorem tile_setTile_other (s : State) {b x c z : Nat} (t : Tile) (h : b ≠ c ∨ x ≠ z) :
    (s.setTile b x t).tile c z = s.tile c z := by
  simp only [State.tile, State.setTile]
  by_cases hb : b = c
  · subst hb
    have hx : x ≠ z := h.resolve_left (by simp)
    by_cases hb8 : b < 8
    · simp [hb8, hx]
    · simp [State.bay, State.setBay, put_of_size _ b _ (by omega : 8 ≤ b)]
  · simp [hb]

/-! ## Timed writes and traps (02_execution R33; 15_traps R376) -/

@[simp] theorem post_wc (s : State) (lat : Nat) (w : List Land) (e : List (Nat × Nat)) : (s.post lat w e).wc = s.wc := by
  unfold State.post; split <;> rfl
@[simp] theorem post_turn (s : State) (lat : Nat) (w : List Land) (e : List (Nat × Nat)) : (s.post lat w e).turn = s.turn := by
  unfold State.post; split <;> rfl
@[simp] theorem post_core (s : State) (lat : Nat) (w : List Land) (e : List (Nat × Nat)) : (s.post lat w e).core = s.core := by
  unfold State.post; split <;> rfl
@[simp] theorem post_agenda (s : State) (lat : Nat) (w : List Land) (e : List (Nat × Nat)) : (s.post lat w e).agenda = s.agenda := by
  unfold State.post; split <;> rfl
@[simp] theorem post_free (s : State) (lat : Nat) (w : List Land) (e : List (Nat × Nat)) : (s.post lat w e).free = s.free := by
  unfold State.post; split <;> rfl
@[simp] theorem post_phase (s : State) (lat : Nat) (w : List Land) (e : List (Nat × Nat)) : (s.post lat w e).phase = s.phase := by
  unfold State.post; split <;> rfl
@[simp] theorem post_mem (s : State) (lat : Nat) (w : List Land) (e : List (Nat × Nat)) : (s.post lat w e).mem = s.mem := by
  unfold State.post; split <;> rfl
@[simp] theorem post_badLines (s : State) (lat : Nat) (w : List Land) (e : List (Nat × Nat)) : (s.post lat w e).badLines = s.badLines := by
  unfold State.post; split <;> rfl
@[simp] theorem post_dies (s : State) (lat : Nat) (w : List Land) (e : List (Nat × Nat)) : (s.post lat w e).dies = s.dies := by
  unfold State.post; split <;> rfl
@[simp] theorem post_desc (s : State) (lat : Nat) (w : List Land) (e : List (Nat × Nat)) : (s.post lat w e).desc = s.desc := by
  unfold State.post; split <;> rfl
@[simp] theorem post_jobs (s : State) (lat : Nat) (w : List Land) (e : List (Nat × Nat)) : (s.post lat w e).jobs = s.jobs := by
  unfold State.post; split <;> rfl
@[simp] theorem post_snapshots (s : State) (lat : Nat) (w : List Land) (e : List (Nat × Nat)) : (s.post lat w e).snapshots = s.snapshots := by
  unfold State.post; split <;> rfl
@[simp] theorem post_ftime (s : State) (lat : Nat) (w : List Land) (e : List (Nat × Nat)) : (s.post lat w e).ftime = s.ftime := by
  unfold State.post; split <;> rfl
@[simp] theorem post_acquired (s : State) (lat : Nat) (w : List Land) (e : List (Nat × Nat)) : (s.post lat w e).acquired = s.acquired := by
  unfold State.post; split <;> rfl
@[simp] theorem post_power (s : State) (lat : Nat) (w : List Land) (e : List (Nat × Nat)) : (s.post lat w e).power = s.power := by
  unfold State.post; split <;> rfl
@[simp] theorem post_doorbell (s : State) (lat : Nat) (w : List Land) (e : List (Nat × Nat)) : (s.post lat w e).doorbell = s.doorbell := by
  unfold State.post; split <;> rfl
@[simp] theorem post_mailbox (s : State) (lat : Nat) (w : List Land) (e : List (Nat × Nat)) : (s.post lat w e).mailbox = s.mailbox := by
  unfold State.post; split <;> rfl
@[simp] theorem post_flash (s : State) (lat : Nat) (w : List Land) (e : List (Nat × Nat)) : (s.post lat w e).flash = s.flash := by
  unfold State.post; split <;> rfl
@[simp] theorem post_ports (s : State) (lat : Nat) (w : List Land) (e : List (Nat × Nat)) : (s.post lat w e).ports = s.ports := by
  unfold State.post; split <;> rfl
@[simp] theorem post_cxlSize (s : State) (lat : Nat) (w : List Land) (e : List (Nat × Nat)) : (s.post lat w e).cxlSize = s.cxlSize := by
  unfold State.post; split <;> rfl
@[simp] theorem post_compSize (s : State) (lat : Nat) (w : List Land) (e : List (Nat × Nat)) : (s.post lat w e).compSize = s.compSize := by
  unfold State.post; split <;> rfl
@[simp] theorem post_hostBias (s : State) (lat : Nat) (w : List Land) (e : List (Nat × Nat)) : (s.post lat w e).hostBias = s.hostBias := by
  unfold State.post; split <;> rfl
@[simp] theorem post_parked (s : State) (lat : Nat) (w : List Land) (e : List (Nat × Nat)) : (s.post lat w e).parked = s.parked := by
  unfold State.post; split <;> rfl
@[simp] theorem post_fphase (s : State) (lat : Nat) (w : List Land) (e : List (Nat × Nat)) : (s.post lat w e).fphase = s.fphase := by
  unfold State.post; split <;> rfl
@[simp] theorem post_timeRoot (s : State) (lat : Nat) (w : List Land) (e : List (Nat × Nat)) : (s.post lat w e).timeRoot = s.timeRoot := by
  unfold State.post; split <;> rfl
@[simp] theorem post_ptp (s : State) (lat : Nat) (w : List Land) (e : List (Nat × Nat)) : (s.post lat w e).ptp = s.ptp := by
  unfold State.post; split <;> rfl
@[simp] theorem post_settings (s : State) (lat : Nat) (w : List Land) (e : List (Nat × Nat)) : (s.post lat w e).settings = s.settings := by
  unfold State.post; split <;> rfl
@[simp] theorem post_mirrorPort (s : State) (lat : Nat) (w : List Land) (e : List (Nat × Nat)) : (s.post lat w e).mirrorPort = s.mirrorPort := by
  unfold State.post; split <;> rfl
@[simp] theorem post_rootPort (s : State) (lat : Nat) (w : List Land) (e : List (Nat × Nat)) : (s.post lat w e).rootPort = s.rootPort := by
  unfold State.post; split <;> rfl
@[simp] theorem post_updates (s : State) (lat : Nat) (w : List Land) (e : List (Nat × Nat)) : (s.post lat w e).updates = s.updates := by
  unfold State.post; split <;> rfl
@[simp] theorem post_horizons (s : State) (lat : Nat) (w : List Land) (e : List (Nat × Nat)) : (s.post lat w e).horizons = s.horizons := by
  unfold State.post; split <;> rfl
@[simp] theorem post_published (s : State) (lat : Nat) (w : List Land) (e : List (Nat × Nat)) : (s.post lat w e).published = s.published := by
  unfold State.post; split <;> rfl
@[simp] theorem setStrm_wc (s : State) (u : Strm) : (s.setStrm u).wc = s.wc := by
  unfold State.setStrm; split <;> rfl
@[simp] theorem setStrm_turn (s : State) (u : Strm) : (s.setStrm u).turn = s.turn := by
  unfold State.setStrm; split <;> rfl
@[simp] theorem setStrm_core (s : State) (u : Strm) : (s.setStrm u).core = s.core := by
  unfold State.setStrm; split <;> rfl
@[simp] theorem setStrm_agenda (s : State) (u : Strm) : (s.setStrm u).agenda = s.agenda := by
  unfold State.setStrm; split <;> rfl
@[simp] theorem setStrm_free (s : State) (u : Strm) : (s.setStrm u).free = s.free := by
  unfold State.setStrm; split <;> rfl
@[simp] theorem setStrm_phase (s : State) (u : Strm) : (s.setStrm u).phase = s.phase := by
  unfold State.setStrm; split <;> rfl
@[simp] theorem setStrm_mem (s : State) (u : Strm) : (s.setStrm u).mem = s.mem := by
  unfold State.setStrm; split <;> rfl
@[simp] theorem setStrm_badLines (s : State) (u : Strm) : (s.setStrm u).badLines = s.badLines := by
  unfold State.setStrm; split <;> rfl
@[simp] theorem setStrm_dies (s : State) (u : Strm) : (s.setStrm u).dies = s.dies := by
  unfold State.setStrm; split <;> rfl
@[simp] theorem setStrm_desc (s : State) (u : Strm) : (s.setStrm u).desc = s.desc := by
  unfold State.setStrm; split <;> rfl
@[simp] theorem setStrm_jobs (s : State) (u : Strm) : (s.setStrm u).jobs = s.jobs := by
  unfold State.setStrm; split <;> rfl
@[simp] theorem setStrm_snapshots (s : State) (u : Strm) : (s.setStrm u).snapshots = s.snapshots := by
  unfold State.setStrm; split <;> rfl
@[simp] theorem setStrm_ftime (s : State) (u : Strm) : (s.setStrm u).ftime = s.ftime := by
  unfold State.setStrm; split <;> rfl
@[simp] theorem setStrm_acquired (s : State) (u : Strm) : (s.setStrm u).acquired = s.acquired := by
  unfold State.setStrm; split <;> rfl
@[simp] theorem setStrm_power (s : State) (u : Strm) : (s.setStrm u).power = s.power := by
  unfold State.setStrm; split <;> rfl
@[simp] theorem setStrm_doorbell (s : State) (u : Strm) : (s.setStrm u).doorbell = s.doorbell := by
  unfold State.setStrm; split <;> rfl
@[simp] theorem setStrm_mailbox (s : State) (u : Strm) : (s.setStrm u).mailbox = s.mailbox := by
  unfold State.setStrm; split <;> rfl
@[simp] theorem setStrm_flash (s : State) (u : Strm) : (s.setStrm u).flash = s.flash := by
  unfold State.setStrm; split <;> rfl
@[simp] theorem setStrm_ports (s : State) (u : Strm) : (s.setStrm u).ports = s.ports := by
  unfold State.setStrm; split <;> rfl
@[simp] theorem setStrm_cxlSize (s : State) (u : Strm) : (s.setStrm u).cxlSize = s.cxlSize := by
  unfold State.setStrm; split <;> rfl
@[simp] theorem setStrm_compSize (s : State) (u : Strm) : (s.setStrm u).compSize = s.compSize := by
  unfold State.setStrm; split <;> rfl
@[simp] theorem setStrm_hostBias (s : State) (u : Strm) : (s.setStrm u).hostBias = s.hostBias := by
  unfold State.setStrm; split <;> rfl
@[simp] theorem setStrm_parked (s : State) (u : Strm) : (s.setStrm u).parked = s.parked := by
  unfold State.setStrm; split <;> rfl
@[simp] theorem setStrm_fphase (s : State) (u : Strm) : (s.setStrm u).fphase = s.fphase := by
  unfold State.setStrm; split <;> rfl
@[simp] theorem setStrm_timeRoot (s : State) (u : Strm) : (s.setStrm u).timeRoot = s.timeRoot := by
  unfold State.setStrm; split <;> rfl
@[simp] theorem setStrm_ptp (s : State) (u : Strm) : (s.setStrm u).ptp = s.ptp := by
  unfold State.setStrm; split <;> rfl
@[simp] theorem setStrm_settings (s : State) (u : Strm) : (s.setStrm u).settings = s.settings := by
  unfold State.setStrm; split <;> rfl
@[simp] theorem setStrm_mirrorPort (s : State) (u : Strm) : (s.setStrm u).mirrorPort = s.mirrorPort := by
  unfold State.setStrm; split <;> rfl
@[simp] theorem setStrm_rootPort (s : State) (u : Strm) : (s.setStrm u).rootPort = s.rootPort := by
  unfold State.setStrm; split <;> rfl
@[simp] theorem setStrm_updates (s : State) (u : Strm) : (s.setStrm u).updates = s.updates := by
  unfold State.setStrm; split <;> rfl
@[simp] theorem setStrm_horizons (s : State) (u : Strm) : (s.setStrm u).horizons = s.horizons := by
  unfold State.setStrm; split <;> rfl
@[simp] theorem setStrm_published (s : State) (u : Strm) : (s.setStrm u).published = s.published := by
  unfold State.setStrm; split <;> rfl
@[simp] theorem setCurTile_wc (s : State) (t : Tile) : (s.setCurTile t).wc = s.wc := by
  unfold State.setCurTile; split <;> rfl
@[simp] theorem setCurTile_turn (s : State) (t : Tile) : (s.setCurTile t).turn = s.turn := by
  unfold State.setCurTile; split <;> rfl
@[simp] theorem setCurTile_core (s : State) (t : Tile) : (s.setCurTile t).core = s.core := by
  unfold State.setCurTile; split <;> rfl
@[simp] theorem setCurTile_agenda (s : State) (t : Tile) : (s.setCurTile t).agenda = s.agenda := by
  unfold State.setCurTile; split <;> rfl
@[simp] theorem setCurTile_free (s : State) (t : Tile) : (s.setCurTile t).free = s.free := by
  unfold State.setCurTile; split <;> rfl
@[simp] theorem setCurTile_phase (s : State) (t : Tile) : (s.setCurTile t).phase = s.phase := by
  unfold State.setCurTile; split <;> rfl
@[simp] theorem setCurTile_mem (s : State) (t : Tile) : (s.setCurTile t).mem = s.mem := by
  unfold State.setCurTile; split <;> rfl
@[simp] theorem setCurTile_badLines (s : State) (t : Tile) : (s.setCurTile t).badLines = s.badLines := by
  unfold State.setCurTile; split <;> rfl
@[simp] theorem setCurTile_dies (s : State) (t : Tile) : (s.setCurTile t).dies = s.dies := by
  unfold State.setCurTile; split <;> rfl
@[simp] theorem setCurTile_desc (s : State) (t : Tile) : (s.setCurTile t).desc = s.desc := by
  unfold State.setCurTile; split <;> rfl
@[simp] theorem setCurTile_jobs (s : State) (t : Tile) : (s.setCurTile t).jobs = s.jobs := by
  unfold State.setCurTile; split <;> rfl
@[simp] theorem setCurTile_snapshots (s : State) (t : Tile) : (s.setCurTile t).snapshots = s.snapshots := by
  unfold State.setCurTile; split <;> rfl
@[simp] theorem setCurTile_ftime (s : State) (t : Tile) : (s.setCurTile t).ftime = s.ftime := by
  unfold State.setCurTile; split <;> rfl
@[simp] theorem setCurTile_acquired (s : State) (t : Tile) : (s.setCurTile t).acquired = s.acquired := by
  unfold State.setCurTile; split <;> rfl
@[simp] theorem setCurTile_power (s : State) (t : Tile) : (s.setCurTile t).power = s.power := by
  unfold State.setCurTile; split <;> rfl
@[simp] theorem setCurTile_doorbell (s : State) (t : Tile) : (s.setCurTile t).doorbell = s.doorbell := by
  unfold State.setCurTile; split <;> rfl
@[simp] theorem setCurTile_mailbox (s : State) (t : Tile) : (s.setCurTile t).mailbox = s.mailbox := by
  unfold State.setCurTile; split <;> rfl
@[simp] theorem setCurTile_flash (s : State) (t : Tile) : (s.setCurTile t).flash = s.flash := by
  unfold State.setCurTile; split <;> rfl
@[simp] theorem setCurTile_ports (s : State) (t : Tile) : (s.setCurTile t).ports = s.ports := by
  unfold State.setCurTile; split <;> rfl
@[simp] theorem setCurTile_cxlSize (s : State) (t : Tile) : (s.setCurTile t).cxlSize = s.cxlSize := by
  unfold State.setCurTile; split <;> rfl
@[simp] theorem setCurTile_compSize (s : State) (t : Tile) : (s.setCurTile t).compSize = s.compSize := by
  unfold State.setCurTile; split <;> rfl
@[simp] theorem setCurTile_hostBias (s : State) (t : Tile) : (s.setCurTile t).hostBias = s.hostBias := by
  unfold State.setCurTile; split <;> rfl
@[simp] theorem setCurTile_parked (s : State) (t : Tile) : (s.setCurTile t).parked = s.parked := by
  unfold State.setCurTile; split <;> rfl
@[simp] theorem setCurTile_fphase (s : State) (t : Tile) : (s.setCurTile t).fphase = s.fphase := by
  unfold State.setCurTile; split <;> rfl
@[simp] theorem setCurTile_timeRoot (s : State) (t : Tile) : (s.setCurTile t).timeRoot = s.timeRoot := by
  unfold State.setCurTile; split <;> rfl
@[simp] theorem setCurTile_ptp (s : State) (t : Tile) : (s.setCurTile t).ptp = s.ptp := by
  unfold State.setCurTile; split <;> rfl
@[simp] theorem setCurTile_settings (s : State) (t : Tile) : (s.setCurTile t).settings = s.settings := by
  unfold State.setCurTile; split <;> rfl
@[simp] theorem setCurTile_mirrorPort (s : State) (t : Tile) : (s.setCurTile t).mirrorPort = s.mirrorPort := by
  unfold State.setCurTile; split <;> rfl
@[simp] theorem setCurTile_rootPort (s : State) (t : Tile) : (s.setCurTile t).rootPort = s.rootPort := by
  unfold State.setCurTile; split <;> rfl
@[simp] theorem setCurTile_updates (s : State) (t : Tile) : (s.setCurTile t).updates = s.updates := by
  unfold State.setCurTile; split <;> rfl
@[simp] theorem setCurTile_horizons (s : State) (t : Tile) : (s.setCurTile t).horizons = s.horizons := by
  unfold State.setCurTile; split <;> rfl
@[simp] theorem setCurTile_published (s : State) (t : Tile) : (s.setCurTile t).published = s.published := by
  unfold State.setCurTile; split <;> rfl
@[simp] theorem setCurBay_wc (s : State) (y : Bay) : (s.setCurBay y).wc = s.wc := by
  unfold State.setCurBay; split <;> rfl
@[simp] theorem setCurBay_turn (s : State) (y : Bay) : (s.setCurBay y).turn = s.turn := by
  unfold State.setCurBay; split <;> rfl
@[simp] theorem setCurBay_core (s : State) (y : Bay) : (s.setCurBay y).core = s.core := by
  unfold State.setCurBay; split <;> rfl
@[simp] theorem setCurBay_agenda (s : State) (y : Bay) : (s.setCurBay y).agenda = s.agenda := by
  unfold State.setCurBay; split <;> rfl
@[simp] theorem setCurBay_free (s : State) (y : Bay) : (s.setCurBay y).free = s.free := by
  unfold State.setCurBay; split <;> rfl
@[simp] theorem setCurBay_phase (s : State) (y : Bay) : (s.setCurBay y).phase = s.phase := by
  unfold State.setCurBay; split <;> rfl
@[simp] theorem setCurBay_mem (s : State) (y : Bay) : (s.setCurBay y).mem = s.mem := by
  unfold State.setCurBay; split <;> rfl
@[simp] theorem setCurBay_badLines (s : State) (y : Bay) : (s.setCurBay y).badLines = s.badLines := by
  unfold State.setCurBay; split <;> rfl
@[simp] theorem setCurBay_dies (s : State) (y : Bay) : (s.setCurBay y).dies = s.dies := by
  unfold State.setCurBay; split <;> rfl
@[simp] theorem setCurBay_desc (s : State) (y : Bay) : (s.setCurBay y).desc = s.desc := by
  unfold State.setCurBay; split <;> rfl
@[simp] theorem setCurBay_jobs (s : State) (y : Bay) : (s.setCurBay y).jobs = s.jobs := by
  unfold State.setCurBay; split <;> rfl
@[simp] theorem setCurBay_snapshots (s : State) (y : Bay) : (s.setCurBay y).snapshots = s.snapshots := by
  unfold State.setCurBay; split <;> rfl
@[simp] theorem setCurBay_ftime (s : State) (y : Bay) : (s.setCurBay y).ftime = s.ftime := by
  unfold State.setCurBay; split <;> rfl
@[simp] theorem setCurBay_acquired (s : State) (y : Bay) : (s.setCurBay y).acquired = s.acquired := by
  unfold State.setCurBay; split <;> rfl
@[simp] theorem setCurBay_power (s : State) (y : Bay) : (s.setCurBay y).power = s.power := by
  unfold State.setCurBay; split <;> rfl
@[simp] theorem setCurBay_doorbell (s : State) (y : Bay) : (s.setCurBay y).doorbell = s.doorbell := by
  unfold State.setCurBay; split <;> rfl
@[simp] theorem setCurBay_mailbox (s : State) (y : Bay) : (s.setCurBay y).mailbox = s.mailbox := by
  unfold State.setCurBay; split <;> rfl
@[simp] theorem setCurBay_flash (s : State) (y : Bay) : (s.setCurBay y).flash = s.flash := by
  unfold State.setCurBay; split <;> rfl
@[simp] theorem setCurBay_ports (s : State) (y : Bay) : (s.setCurBay y).ports = s.ports := by
  unfold State.setCurBay; split <;> rfl
@[simp] theorem setCurBay_cxlSize (s : State) (y : Bay) : (s.setCurBay y).cxlSize = s.cxlSize := by
  unfold State.setCurBay; split <;> rfl
@[simp] theorem setCurBay_compSize (s : State) (y : Bay) : (s.setCurBay y).compSize = s.compSize := by
  unfold State.setCurBay; split <;> rfl
@[simp] theorem setCurBay_hostBias (s : State) (y : Bay) : (s.setCurBay y).hostBias = s.hostBias := by
  unfold State.setCurBay; split <;> rfl
@[simp] theorem setCurBay_parked (s : State) (y : Bay) : (s.setCurBay y).parked = s.parked := by
  unfold State.setCurBay; split <;> rfl
@[simp] theorem setCurBay_fphase (s : State) (y : Bay) : (s.setCurBay y).fphase = s.fphase := by
  unfold State.setCurBay; split <;> rfl
@[simp] theorem setCurBay_timeRoot (s : State) (y : Bay) : (s.setCurBay y).timeRoot = s.timeRoot := by
  unfold State.setCurBay; split <;> rfl
@[simp] theorem setCurBay_ptp (s : State) (y : Bay) : (s.setCurBay y).ptp = s.ptp := by
  unfold State.setCurBay; split <;> rfl
@[simp] theorem setCurBay_settings (s : State) (y : Bay) : (s.setCurBay y).settings = s.settings := by
  unfold State.setCurBay; split <;> rfl
@[simp] theorem setCurBay_mirrorPort (s : State) (y : Bay) : (s.setCurBay y).mirrorPort = s.mirrorPort := by
  unfold State.setCurBay; split <;> rfl
@[simp] theorem setCurBay_rootPort (s : State) (y : Bay) : (s.setCurBay y).rootPort = s.rootPort := by
  unfold State.setCurBay; split <;> rfl
@[simp] theorem setCurBay_updates (s : State) (y : Bay) : (s.setCurBay y).updates = s.updates := by
  unfold State.setCurBay; split <;> rfl
@[simp] theorem setCurBay_horizons (s : State) (y : Bay) : (s.setCurBay y).horizons = s.horizons := by
  unfold State.setCurBay; split <;> rfl
@[simp] theorem setCurBay_published (s : State) (y : Bay) : (s.setCurBay y).published = s.published := by
  unfold State.setCurBay; split <;> rfl

@[simp] theorem notify_mem (s : State) (k : Nat) (c : Cause) (r : Bool) (b : Nat) : (s.notify k c r b).mem = s.mem := rfl

@[simp] theorem stewardTrap_mem (s : State) (k : Nat) (c : Cause) : (s.stewardTrap k c).mem = s.mem := by
  unfold State.stewardTrap
  dsimp only
  split
  · split
    · rfl
    · split <;> rfl
  · rfl

@[simp] theorem raise_mem (s : State) (c : Cause) (ea : Word) : (s.raise c ea).mem = s.mem := by
  unfold State.raise
  split
  · rfl
  · exact stewardTrap_mem s _ c

@[simp] theorem transfer_mem (s : State) (fn : BitVec 24) (off : Nat) : (s.transfer fn off).mem = s.mem := by
  simp [State.transfer]

/-- What a raise does on a tile: one trap record more in its bay, and nothing else. -/
theorem raise_tile (s : State) (b x k : Nat) (c : Cause) (ea : Word) (h : s.core = .tile b x k) :
    s.raise c ea = s.setBay b { s.bay b with traps := (s.bay b).traps ++
      [{ cause := c, tile := x, strm := k, addr := s.addr, ea := ea }] } := by
  simp [State.raise, h]

/-- What a post does on a tile: one record in flight more, and nothing else. -/
theorem post_tile (s : State) (b x k lat : Nat) (w : List Land) (e : List (Nat × Nat)) (h : s.core = .tile b x k) :
    s.post lat w e = s.setTile b x { s.tile b x with pend := (s.tile b x).pend ++
      [{ due := s.tc + lat, issued := s.tc, strm := k, addr := s.addr, evs := e, what := w }] } := by
  simp [State.post, State.strmNo, h]

/-! ## The shape of a word's meaning (03_encoding R65, R73, R74) -/

/-- Everything a p-guarded word can do. -/
theorem scalarWord_cases (ks : List Nat) (stew : Bool) (i : Instr) (h : Head) (s : State) (hz : State → List Hazard)
    (eff sup : State → State) :
    (s.executes ks stew = false ∧ scalarWord ks stew i h s hz eff sup = .next (s.raise 0x003)) ∨
    (s.executes ks stew = true ∧ guardP h s.strm = false ∧ scalarWord ks stew i h s hz eff sup = .next (sup s)) ∨
    (s.executes ks stew = true ∧ guardP h s.strm = true ∧ ∃ c ea, worst (plain (formCauses i) ++ hz s) = some (c, ea) ∧
      scalarWord ks stew i h s hz eff sup = .next (s.raise c ea)) ∨
    (s.executes ks stew = true ∧ guardP h s.strm = true ∧ worst (plain (formCauses i) ++ hz s) = none ∧
      scalarWord ks stew i h s hz eff sup = .next (eff s)) := by
  unfold scalarWord
  cases s.executes ks stew <;> cases guardP h s.strm <;> simp
  split <;> simp_all

/-- Everything a q-guarded word can do. -/
theorem laneWord_cases (ks : List Nat) (i : Instr) (h : Head) (s : State) (hz : QReg → State → List Hazard)
    (eff : QReg → State → State) :
    (s.executes ks false = false ∧ laneWord ks i h s hz eff = .next (s.raise 0x003)) ∨
    (s.executes ks false = true ∧ guardQ h s.strm = 0 ∧ laneWord ks i h s hz eff = .next s) ∨
    (s.executes ks false = true ∧ guardQ h s.strm ≠ 0 ∧
      ∃ c ea, worst (plain (formCauses i) ++ hz (guardQ h s.strm) s) = some (c, ea) ∧
        laneWord ks i h s hz eff = .next (s.raise c ea)) ∨
    (s.executes ks false = true ∧ guardQ h s.strm ≠ 0 ∧ worst (plain (formCauses i) ++ hz (guardQ h s.strm) s) = none ∧
      laneWord ks i h s hz eff = .next (eff (guardQ h s.strm) s)) := by
  unfold laneWord
  by_cases he : s.executes ks false = true <;> by_cases hg : guardQ h s.strm = 0 <;> simp_all
  split <;> simp_all

/-- No cause at all is the worst of none. -/
@[simp] theorem worst_nil : worst [] = none := rfl

theorem worst_none {hs : List Hazard} (h : worst hs = none) : hs = [] := by
  have key : ∀ (l : List Hazard) (m : Option Hazard), m ≠ none →
      l.foldl (fun m h => match m with
        | none => some h
        | some x => some (if h.1.toNat < x.1.toNat then h else x)) m ≠ none := by
    intro l
    induction l with
    | nil => exact fun _ h => h
    | cons a l ih =>
      intro m hm
      refine ih _ ?_
      cases m <;> simp
  cases hs with
  | nil => rfl
  | cons a l => exact absurd h (key l (some a) (by simp))

end Sys2Proof.Machine
end

