-- ==== Sys2Proof/Laws/Words.lean ====
section
/-! SUPPORT. What the shapes of a word can do, said once: outside its streams, suppressed, with a cause, and with its
effect (Machine/Flags, Elements, Gateway). -/

namespace Sys2Proof.Machine

theorem worst_single (h : Hazard) : worst [h] = some h := rfl

/-- The cause of several is one of them. -/
theorem worst_mem {hs : List Hazard} {h : Hazard} (e : worst hs = some h) : h ∈ hs := by
  have key : ∀ (l : List Hazard) (m : Option Hazard),
      l.foldl (fun m h => match m with
        | none => some h
        | some x => some (if h.1.toNat < x.1.toNat then h else x)) m = some h → h ∈ l ∨ m = some h := by
    intro l
    induction l with
    | nil => intro m e; exact .inr e
    | cons a l ih =>
      intro m e
      rcases ih _ e with hm | hm
      · exact .inl (.tail _ hm)
      · cases m with
        | none => simp at hm; exact .inl (hm ▸ .head _)
        | some x =>
          simp only [Option.some.injEq] at hm
          split at hm
          · exact .inl (hm ▸ .head _)
          · exact .inr (by rw [hm])
  rcases key hs none e with h | h
  · exact h
  · cases h

/-- The cause of several is none of theirs lower. -/
theorem worst_le {hs : List Hazard} {h : Hazard} (e : worst hs = some h) : ∀ x ∈ hs, h.1.toNat ≤ x.1.toNat := by
  have key : ∀ (l : List Hazard) (m : Option Hazard),
      l.foldl (fun m h => match m with
        | none => some h
        | some x => some (if h.1.toNat < x.1.toNat then h else x)) m = some h →
      (∀ x ∈ l, h.1.toNat ≤ x.1.toNat) ∧ ∀ y, m = some y → h.1.toNat ≤ y.1.toNat := by
    intro l
    induction l with
    | nil => intro m e; exact ⟨by simp, fun y hy => by rw [hy] at e; simp at e; rw [e]⟩
    | cons a l ih =>
      intro m e
      obtain ⟨h1, h2⟩ := ih _ e
      cases m with
      | none =>
        have ha := h2 a rfl
        refine ⟨fun x hx => ?_, fun y hy => by cases hy⟩
        rcases List.mem_cons.1 hx with rfl | hx
        · exact ha
        · exact h1 x hx
      | some z =>
        by_cases hz : a.1.toNat < z.1.toNat
        · have ha := h2 a (by simp [hz])
          refine ⟨fun x hx => ?_, fun y hy => ?_⟩
          · rcases List.mem_cons.1 hx with rfl | hx
            · exact ha
            · exact h1 x hx
          · cases hy; omega
        · have ha := h2 z (by simp [hz])
          refine ⟨fun x hx => ?_, fun y hy => ?_⟩
          · rcases List.mem_cons.1 hx with rfl | hx
            · omega
            · exact h1 x hx
          · cases hy; exact ha
  exact (key hs none e).1

theorem scalarWord_outside {ks : List Nat} {stew : Bool} {i : Instr} {h : Head} {s : State} {hz : State → List Hazard}
    {eff sup : State → State} (he : s.executes ks stew = false) :
    scalarWord ks stew i h s hz eff sup = .next (s.raise 0x003) := by simp [scalarWord, he]

theorem scalarWord_suppressed {ks : List Nat} {stew : Bool} {i : Instr} {h : Head} {s : State}
    {hz : State → List Hazard} {eff sup : State → State} (he : s.executes ks stew = true)
    (hg : guardP h s.strm = false) : scalarWord ks stew i h s hz eff sup = .next (sup s) := by
  simp [scalarWord, he, hg]

/-- An active word without a cause has its effect. -/
theorem scalarWord_runs {ks : List Nat} {stew : Bool} {i : Instr} {h : Head} {s : State} {hz : State → List Hazard}
    {eff sup : State → State} (he : s.executes ks stew = true) (hg : guardP h s.strm = true) (hf : formCauses i = [])
    (hh : hz s = []) : scalarWord ks stew i h s hz eff sup = .next (eff s) := by
  simp [scalarWord, he, hg, hf, hh, plain, worst_nil]

/-- An active word with causes raises the one that `worst` gives. -/
theorem scalarWord_raises {ks : List Nat} {stew : Bool} {i : Instr} {h : Head} {s : State} {hz : State → List Hazard}
    {eff sup : State → State} {c : Cause} {ea : Word} (he : s.executes ks stew = true) (hg : guardP h s.strm = true)
    (hw : worst (plain (formCauses i) ++ hz s) = some (c, ea)) :
    scalarWord ks stew i h s hz eff sup = .next (s.raise c ea) := by simp [scalarWord, he, hg, hw]

theorem laneWord_outside {ks : List Nat} {i : Instr} {h : Head} {s : State} {hz : QReg → State → List Hazard}
    {eff : QReg → State → State} (he : s.executes ks false = false) :
    laneWord ks i h s hz eff = .next (s.raise 0x003) := by simp [laneWord, he]

theorem laneWord_suppressed {ks : List Nat} {i : Instr} {h : Head} {s : State} {hz : QReg → State → List Hazard}
    {eff : QReg → State → State} (he : s.executes ks false = true) (hg : guardQ h s.strm = 0) :
    laneWord ks i h s hz eff = .next s := by simp [laneWord, he, hg]

theorem laneWord_runs {ks : List Nat} {i : Instr} {h : Head} {s : State} {hz : QReg → State → List Hazard}
    {eff : QReg → State → State} (he : s.executes ks false = true) (hg : guardQ h s.strm ≠ 0) (hf : formCauses i = [])
    (hh : hz (guardQ h s.strm) s = []) : laneWord ks i h s hz eff = .next (eff (guardQ h s.strm) s) := by
  unfold laneWord
  simp only [he, hf, hh, plain, Bool.not_true, Bool.false_eq_true, if_false, List.map_nil, List.nil_append, worst_nil]
  rw [if_neg hg]

theorem laneWord_raises {ks : List Nat} {i : Instr} {h : Head} {s : State} {hz : QReg → State → List Hazard}
    {eff : QReg → State → State} {c : Cause} {ea : Word} (he : s.executes ks false = true) (hg : guardQ h s.strm ≠ 0)
    (hw : worst (plain (formCauses i) ++ hz (guardQ h s.strm) s) = some (c, ea)) :
    laneWord ks i h s hz eff = .next (s.raise c ea) := by
  unfold laneWord
  simp only [he, hw, Bool.not_true, Bool.false_eq_true, if_false]
  rw [if_neg hg]

/-- A vector word whose operands can be read writes its result. -/
theorem vecWord_runs {ks : List Nat} {i : Instr} {h : Head} {lat : Nat} {d : Sel} {m : VMod} {draws : Bool} {s : State}
    {comp : QReg → State → Except Cause VOut} {v : VOut} (he : s.executes ks false = true) (hg : guardQ h s.strm ≠ 0)
    (hf : formCauses i = []) (hv : comp (guardQ h s.strm) s = .ok v) :
    vecWord ks i h lat d m draws comp s = .next ((s.vwrite lat d m (stationOf s.strmNo) v).advanceDraw draws) := by
  unfold vecWord
  rw [laneWord_runs he hg hf (by simp [hv, causeIn])]
  simp [hv]

/-- A vector word with an operand that cannot be read raises its cause. -/
theorem vecWord_raises {ks : List Nat} {i : Instr} {h : Head} {lat : Nat} {d : Sel} {m : VMod} {draws : Bool} {s : State}
    {comp : QReg → State → Except Cause VOut} {c : Cause} (he : s.executes ks false = true) (hg : guardQ h s.strm ≠ 0)
    (hf : formCauses i = []) (hv : comp (guardQ h s.strm) s = .error c) :
    vecWord ks i h lat d m draws comp s = .next (s.raise c) := by
  unfold vecWord
  exact laneWord_raises he hg (by simp [hf, plain, hv, causeIn, worst_single])

/-- A command word whose token is free and that raises nothing has its effect. -/
theorem cmdWord_runs {ks : List Nat} {i : Instr} {h : Head} {kd : BitVec 6} {s : State} {hz : State → List Hazard}
    {eff : State → State} (he : s.executes ks false = true) (hg : guardP h s.strm = true) (hf : formCauses i = [])
    (ht : s.tokBusy kd.toNat = false) (hh : hz s = []) : cmdWord ks i h kd hz eff s = .next (eff s) :=
  scalarWord_runs he hg hf (by simp [ht, hh, when])

theorem both_ok {α β : Type} {a : Except Cause α} {b : Except Cause β} {x : α} {y : β} (ha : a = .ok x)
    (hb : b = .ok y) : both a b = .ok (x, y) := by subst ha hb; rfl

theorem when_false (c : Cause) (ea : Word) : when false c ea = [] := rfl

theorem when_true (c : Cause) (ea : Word) : when true c ea = [(c, ea)] := rfl

/-! ## What a word leaves once its writes are known -/

theorem State.settle_steward {s : State} {k : Nat} (h : s.core = .steward k) (t : State) : s.settle t = t := by
  simp [State.settle, h]

/-- A note adds entries to the list of its tile and changes nothing else. -/
theorem State.note_cases {s : State} {b x k : Nat} (h : s.core = .tile b x k) (t : State) :
    s.note t = t ∨ ∃ es, s.note t = t.setTile b x { t.tile b x with early := (t.tile b x).early ++ es } := by
  simp only [State.note, h]
  split
  · exact .inl rfl
  · split
    · exact .inr ⟨_, rfl⟩
    · exact .inl rfl

theorem Tile.takeBack_of_none {t : Tile} {k u : Nat} {a : Word} (h : ∀ e ∈ t.early, e.by_ k u a = false) : t.takeBack k u a = t := by
  have hn : t.early.filter (fun e => e.by_ k u a) = [] := List.filter_eq_nil_iff.mpr (by simpa using h)
  have ha : t.early.filter (fun e => !e.by_ k u a) = t.early := List.filter_eq_self.mpr (by simpa using h)
  simp [Tile.takeBack, hn, ha]

end Sys2Proof.Machine
end

