-- ==== Sys2Proof/Tests/Slice0.lean ====
section
/-! SUPPORT. Tests of the model: what the checks of WellFormed refuse, words written out from the spec's encoding tables and
decoded, the spec's worked examples, and for each statement a state and operands that meet its hypotheses. -/

set_option maxRecDepth 100000

namespace Sys2Proof.Tests

open Sys2Proof Sys2Proof.Machine Sys2Proof.Safety

/-! ## Decoding: words written out from the spec -/

/-- The unguarded head with IDLE 0 (03_encoding R66). -/
def hd : Head := ⟨0, 0, 0, 0xFF, 0⟩

/-- A word of 03_encoding Table 1 from MAJ, MIN, M (its bit 0 is L), D, A, B and its low 32 bits, unguarded, IDLE 0. -/
def w (maj min m d a b c : Nat) : Code :=
  BitVec.ofNat 128 (maj * 2 ^ 120 + min * 2 ^ 112 + 0xFF * 2 ^ 92 + d * 2 ^ 68 + a * 2 ^ 56 + b * 2 ^ 44 + m * 2 ^ 32 + c)

/-- Whether every word decodes to its instruction. -/
def decodesAll (ps : List (Code × Instr)) : Bool := ps.all (fun p => (decode p.1).toOption == some p.2)

/-- MAJ 0x00 and 0x01 (05_control_registers Tables 6 to 9). -/
theorem test_decode_sequence : decodesAll
    [(w 0x00 0x00 0x000 0xf00 0xf00 0xf00 0xf0000000, .nop hd ⟨.none, .none, .none, .sel .none 0⟩),
     (w 0x00 0x01 0x000 0x505 0xf00 0xf00 0xf0000000, .wait hd ⟨.imm 5, .none, .none, .sel .none 0⟩),
     (w 0x00 0x01 0x001 0xf01 0xf00 0xf00 0x000003e8, .wait hd ⟨.lit, .none, .none, .lit 1000⟩),
     (w 0x00 0x02 0x000 0xf00 0xf00 0xf00 0xf0000000, .halt hd ⟨.none, .none, .none, .sel .none 0⟩),
     (w 0x01 0x00 0x000 0x702 0x004 0xf00 0xf0000000, .btgt hd ⟨.b 2, .a 4, .none, .sel .none 0⟩ false),
     (w 0x01 0x00 0x003 0x702 0xf01 0xf00 0x00000007, .btgt hd ⟨.b 2, .lit, .none, .lit 7⟩ true),
     (w 0x01 0x01 0x000 0x702 0xf00 0xf00 0xf0000000, .br hd ⟨.b 2, .none, .none, .sel .none 0⟩),
     (w 0x01 0x02 0x000 0x703 0xf00 0xf00 0xf0000000, .call hd ⟨.b 3, .none, .none, .sel .none 0⟩),
     (w 0x01 0x03 0x000 0x707 0xf00 0xf00 0xf0000000, .ret hd ⟨.b 7, .none, .none, .sel .none 0⟩),
     (w 0x01 0x04 0x000 0xf00 0xf00 0xf00 0xf0000000, .rdv hd ⟨.none, .none, .none, .sel .none 0⟩ false false),
     (w 0x01 0x04 0x002 0xf00 0xf00 0xf00 0xf0000000, .rdv hd ⟨.none, .none, .none, .sel .none 0⟩ true false),
     (w 0x01 0x04 0x006 0xf00 0xf00 0xf00 0xf0000000, .rdv hd ⟨.none, .none, .none, .sel .none 0⟩ true true),
     (w 0x01 0x05 0x000 0xf00 0xf00 0xf00 0xf0000000, .safe hd ⟨.none, .none, .none, .sel .none 0⟩),
     (w 0x01 0x06 0x000 0x004 0xf00 0xf00 0xf0000000, .holdTok hd ⟨.a 4, .none, .none, .sel .none 0⟩),
     (w 0x01 0x06 0x002 0x503 0x004 0xf00 0xf0000000, .holdSem hd ⟨.imm 3, .a 4, .none, .sel .none 0⟩),
     (w 0x01 0x06 0x004 0x503 0x004 0xf00 0xf0000000, .holdBc hd ⟨.imm 3, .a 4, .none, .sel .none 0⟩),
     (w 0x01 0x06 0x006 0xf00 0xf00 0xf00 0xf0000000, .holdStep hd ⟨.none, .none, .none, .sel .none 0⟩),
     (w 0x01 0x06 0x008 0x004 0xf00 0xf00 0xf0000000, .holdCol hd ⟨.a 4, .none, .none, .sel .none 0⟩),
     (w 0x01 0x07 0x000 0x502 0xf00 0xf00 0xf0000000, .trap hd ⟨.imm 2, .none, .none, .sel .none 0⟩),
     (w 0x01 0x08 0x000 0x509 0x004 0xf00 0xf0000000, .sysc hd ⟨.imm 9, .a 4, .none, .sel .none 0⟩)] = true := by decide

/-- MAJ 0x02 and 0x03 (05_control_registers Tables 10, 13, 15). -/
theorem test_decode_loops : decodesAll
    [(w 0x02 0x00 0x000 0x701 0x004 0x503 0xf0000000, .lpset hd ⟨.b 1, .a 4, .imm 3, .sel .none 0⟩),
     (w 0x02 0x01 0x000 0x701 0xf00 0xf00 0xf0000000, .lpend hd ⟨.b 1, .none, .none, .sel .none 0⟩),
     (w 0x02 0x02 0x000 0x004 0x502 0x501 0xf0000000, .lndef hd ⟨.a 4, .imm 2, .imm 1, .sel .none 0⟩),
     (w 0x02 0x03 0x000 0x303 0x701 0xf00 0xf0000000, .lngo hd ⟨.p 3, .b 1, .none, .sel .none 0⟩),
     (w 0x02 0x04 0x000 0x303 0x701 0xf00 0xf0000000, .lnnext hd ⟨.p 3, .b 1, .none, .sel .none 0⟩),
     (w 0x03 0x00 0x000 0x004 0x303 0xf00 0xf0000000, .mov hd ⟨.a 4, .p 3, .none, .sel .none 0⟩),
     (w 0x03 0x01 0x000 0x004 0x503 0xf00 0xf0000000, .movi hd ⟨.a 4, .imm 3, .none, .sel .none 0⟩ false false),
     (w 0x03 0x01 0x003 0x004 0xf01 0xf00 0x00000009, .movi hd ⟨.a 4, .lit, .none, .lit 9⟩ true false),
     (w 0x03 0x01 0x005 0x004 0xf01 0xf00 0x00000009, .movi hd ⟨.a 4, .lit, .none, .lit 9⟩ false true),
     (w 0x03 0x02 0x000 0x004 0x402 0xf00 0xf0000000, .srd hd ⟨.a 4, .cr 2, .none, .sel .none 0⟩),
     (w 0x03 0x03 0x000 0x410 0x004 0xf00 0xf0000000, .swr hd ⟨.cr 16, .a 4, .none, .sel .none 0⟩),
     (w 0x03 0x04 0x000 0xf00 0xf00 0xf00 0xf0000000, .eret hd ⟨.none, .none, .none, .sel .none 0⟩)] = true := by decide

/-- MAJ 0x04 and 0x05 (05_control_registers Table 11). -/
theorem test_decode_integer : decodesAll
    [(w 0x04 0x00 0x000 0x003 0x004 0x505 0xf0000000, .add hd ⟨.a 3, .a 4, .imm 5, .sel .none 0⟩),
     (w 0x04 0x01 0x000 0x003 0x004 0x505 0xf0000000, .sub hd ⟨.a 3, .a 4, .imm 5, .sel .none 0⟩),
     (w 0x04 0x02 0x000 0x003 0x004 0x505 0xf0000000, .and hd ⟨.a 3, .a 4, .imm 5, .sel .none 0⟩),
     (w 0x04 0x03 0x000 0x003 0x004 0x505 0xf0000000, .or hd ⟨.a 3, .a 4, .imm 5, .sel .none 0⟩),
     (w 0x04 0x04 0x000 0x003 0x004 0x505 0xf0000000, .xor hd ⟨.a 3, .a 4, .imm 5, .sel .none 0⟩),
     (w 0x04 0x05 0x000 0x003 0x004 0x505 0xf0000000, .andn hd ⟨.a 3, .a 4, .imm 5, .sel .none 0⟩),
     (w 0x04 0x06 0x000 0x003 0x004 0x505 0xf0000000, .shl hd ⟨.a 3, .a 4, .imm 5, .sel .none 0⟩),
     (w 0x04 0x07 0x000 0x003 0x004 0x505 0xf0000000, .shr hd ⟨.a 3, .a 4, .imm 5, .sel .none 0⟩),
     (w 0x04 0x08 0x000 0x003 0x004 0x505 0xf0000000, .sar hd ⟨.a 3, .a 4, .imm 5, .sel .none 0⟩),
     (w 0x04 0x09 0x000 0x003 0x004 0x505 0xf0000000, .min hd ⟨.a 3, .a 4, .imm 5, .sel .none 0⟩),
     (w 0x04 0x0a 0x000 0x003 0x004 0x505 0xf0000000, .max hd ⟨.a 3, .a 4, .imm 5, .sel .none 0⟩),
     (w 0x04 0x0b 0x000 0x003 0x004 0x505 0xf0000000, .minu hd ⟨.a 3, .a 4, .imm 5, .sel .none 0⟩),
     (w 0x04 0x0c 0x000 0x003 0x004 0x505 0xf0000000, .maxu hd ⟨.a 3, .a 4, .imm 5, .sel .none 0⟩),
     (w 0x04 0x0d 0x000 0x003 0x004 0x005 0x30200000, .sel hd ⟨.a 3, .a 4, .a 5, .sel (.p 2) 0⟩),
     (w 0x05 0x00 0x000 0x003 0x004 0x005 0xf0000000, .mul hd ⟨.a 3, .a 4, .a 5, .sel .none 0⟩),
     (w 0x05 0x01 0x002 0x003 0x004 0x005 0xf0000000, .mulh hd ⟨.a 3, .a 4, .a 5, .sel .none 0⟩ true),
     (w 0x05 0x02 0x000 0x003 0x004 0x005 0xf0000000, .div hd ⟨.a 3, .a 4, .a 5, .sel .none 0⟩ false),
     (w 0x05 0x03 0x002 0x003 0x004 0x005 0xf0000000, .rem hd ⟨.a 3, .a 4, .a 5, .sel .none 0⟩ true),
     (w 0x05 0x04 0x000 0x003 0x004 0xf00 0xf0000000, .clz hd ⟨.a 3, .a 4, .none, .sel .none 0⟩),
     (w 0x05 0x05 0x000 0x003 0x004 0xf00 0xf0000000, .popc hd ⟨.a 3, .a 4, .none, .sel .none 0⟩),
     (w 0x05 0x06 0x002 0x003 0x004 0x508 0x50400000, .ext hd ⟨.a 3, .a 4, .imm 8, .sel (.imm 4) 0⟩ true),
     (w 0x05 0x07 0x000 0x003 0x004 0x508 0x50400000, .ins hd ⟨.a 3, .a 4, .imm 8, .sel (.imm 4) 0⟩)] = true := by decide

/-- MAJ 0x06 and 0x07 (05_control_registers Table 12; 13_counters Table 3). -/
theorem test_decode_predicates : decodesAll
    [(w 0x06 0x00 0x264 0x301 0x004 0x005 0xf0000000, .cmp hd ⟨.p 1, .a 4, .a 5, .sel .none 0⟩ 2 3 1),
     (w 0x06 0x01 0x006 0x301 0x302 0x304 0x50800000, .pset hd ⟨.p 1, .p 2, .p 4, .sel (.imm 8) 0⟩ 3),
     (w 0x06 0x02 0x028 0x301 0x302 0xf00 0xf0000000, .pbc hd ⟨.p 1, .p 2, .none, .sel .none 0⟩ 4 true),
     (w 0x07 0x00 0x000 0x503 0x501 0xf00 0xf0000000, .semw hd ⟨.imm 3, .imm 1, .none, .sel .none 0⟩),
     (w 0x07 0x01 0x08a 0x503 0x501 0xf00 0xf0000000, .sems hd ⟨.imm 3, .imm 1, .none, .sel .none 0⟩ true 5),
     (w 0x07 0x02 0x000 0x503 0xf00 0xf00 0xf0000000, .mtxl hd ⟨.imm 3, .none, .none, .sel .none 0⟩),
     (w 0x07 0x03 0x000 0x503 0xf00 0xf00 0xf0000000, .mtxu hd ⟨.imm 3, .none, .none, .sel .none 0⟩ false 0)] = true := by decide

/-- MAJ 0x20 to 0x22 (08_memories R232, Tables 4 and 5). -/
theorem test_decode_banks : decodesAll
    [(w 0x20 0x00 0x06a 0x003 0x004 0x508 0xf0000000, .ldl hd ⟨.a 3, .a 4, .imm 8, .sel .none 0⟩ 5 2 true),
     (w 0x20 0x01 0x03a 0x003 0x004 0xf00 0xf0000000, .stl hd ⟨.a 3, .a 4, .none, .sel .none 0⟩ 5 3),
     (w 0x21 0x00 0x01a 0x103 0x004 0xf00 0x00600000, .brd hd ⟨.v 3, .a 4, .none, .sel (.a 6) 0⟩ 5 true),
     (w 0x21 0x01 0x00a 0x213 0x004 0xf00 0xf0000000, .bwr hd ⟨.lane true 3, .a 4, .none, .sel .none 0⟩ 5),
     (w 0x21 0x02 0x01a 0x003 0x004 0xf00 0xf0000000, .brds hd ⟨.a 3, .a 4, .none, .sel .none 0⟩ 5 1 false),
     (w 0x21 0x03 0x00a 0x103 0x004 0xf00 0xf0000000, .bgth hd ⟨.v 3, .a 4, .none, .sel .none 0⟩ 5 false),
     (w 0x21 0x04 0x0ca 0x103 0x004 0xf00 0x10900000, .bsct hd ⟨.v 3, .a 4, .none, .sel (.v 9) 0⟩ 5 12),
     (w 0x21 0x05 0x03a 0x504 0x004 0xf00 0x00600000, .bfill hd ⟨.imm 4, .a 4, .none, .sel (.a 6) 0⟩ 5 3),
     (w 0x21 0x06 0x00a 0x006 0x004 0xf00 0xf0000000, .bchk hd ⟨.a 6, .a 4, .none, .sel .none 0⟩ 5),
     (w 0x22 0x00 0x0ca 0x103 0x004 0xf00 0xf0000001, .batm hd ⟨.v 3, .a 4, .none, .sel .none 1⟩ 5 12)] = true := by decide

/-- MAJ 0x28 to 0x31 (08_memories R244, R246, Table 9; 09_ordering Table 2; 11_tables Table 5, R309; 12_endpoints Table 3). -/
theorem test_decode_gateway : decodesAll
    [(w 0x28 0x01 0x184 0x005 0x006 0x502 0x50c00000, .gst hd ⟨.a 5, .a 6, .imm 2, .sel (.imm 12) 0⟩ 2 3),
     (w 0x28 0x02 0x004 0x005 0x006 0x007 0xf0080001, .gcpy hd ⟨.a 5, .a 6, .a 7, .sel .none 524289⟩ 2),
     (w 0x28 0x03 0x004 0x005 0x006 0x501 0xf0000000, .gpf hd ⟨.a 5, .a 6, .imm 1, .sel .none 0⟩ 2),
     (w 0x28 0x04 0x004 0x005 0x006 0xf00 0xf0000000, .ginv hd ⟨.a 5, .a 6, .none, .sel .none 0⟩ 2),
     (w 0x28 0x05 0x004 0x005 0x006 0xf00 0xf0000000, .gwb hd ⟨.a 5, .a 6, .none, .sel .none 0⟩ 2),
     (w 0x29 0x00 0x184 0x005 0x006 0x007 0x00800000, .ggth hd ⟨.a 5, .a 6, .a 7, .sel (.a 8) 0⟩ 2 3),
     (w 0x29 0x01 0x184 0x005 0x006 0x007 0x10800000, .gsct hd ⟨.a 5, .a 6, .a 7, .sel (.v 8) 0⟩ 2 3),
     (w 0x2a 0x00 0x584 0x005 0x006 0x504 0x53100000, .gatm hd ⟨.a 5, .a 6, .imm 4, .sel (.imm 49) 0⟩ 2 3 true),
     (w 0x30 0x00 0x284 0x005 0xf00 0xf00 0xf0000000, .acq hd ⟨.a 5, .none, .none, .sel .none 0⟩ 2 5),
     (w 0x30 0x02 0x284 0xf00 0xf00 0xf00 0xf0000000, .fence hd ⟨.none, .none, .none, .sel .none 0⟩ 2 5),
     (w 0x31 0x00 0x000 0x503 0x004 0x005 0x00600000, .bind hd ⟨.imm 3, .a 4, .a 5, .sel (.a 6) 0⟩),
     (w 0x31 0x02 0x006 0x004 0x005 0x006 0xf0000000, .waita hd ⟨.a 4, .a 5, .a 6, .sel .none 0⟩ 3)] = true := by decide

/-- MAJ 0x40 and 0x41 (06_vector_rows Tables 5 and 6; 03_encoding Table 3). -/
theorem test_decode_float : decodesAll
    [(w 0x40 0x00 0x326 0x103 0x104 0x202 0xf0000000, .vadd hd ⟨.v 3, .v 4, .lane false 2, .sel .none 0⟩ ⟨true, 1, true, 12, false⟩),
     (w 0x40 0x01 0x326 0x103 0x104 0x202 0xf0000000, .vsub hd ⟨.v 3, .v 4, .lane false 2, .sel .none 0⟩ ⟨true, 1, true, 12, false⟩),
     (w 0x40 0x02 0x326 0x103 0x104 0x202 0xf0000000, .vmul hd ⟨.v 3, .v 4, .lane false 2, .sel .none 0⟩ ⟨true, 1, true, 12, false⟩),
     (w 0x40 0x03 0x326 0x103 0x104 0x202 0x10600000, .vfma hd ⟨.v 3, .v 4, .lane false 2, .sel (.v 6) 0⟩ ⟨true, 1, true, 12, false⟩),
     (w 0x40 0x04 0x326 0x103 0x104 0x202 0x10600000, .vfms hd ⟨.v 3, .v 4, .lane false 2, .sel (.v 6) 0⟩ ⟨true, 1, true, 12, false⟩),
     (w 0x40 0x05 0x300 0x103 0x104 0xf00 0xf0000000, .vneg hd ⟨.v 3, .v 4, .none, .sel .none 0⟩ ⟨false, 0, false, 12, false⟩),
     (w 0x40 0x06 0x300 0x103 0x104 0xf00 0xf0000000, .vabs hd ⟨.v 3, .v 4, .none, .sel .none 0⟩ ⟨false, 0, false, 12, false⟩),
     (w 0x41 0x00 0x300 0x103 0x104 0x105 0xf0000000, .vmin hd ⟨.v 3, .v 4, .v 5, .sel .none 0⟩ ⟨false, 0, false, 12, false⟩),
     (w 0x41 0x01 0x300 0x103 0x104 0x105 0xf0000000, .vmax hd ⟨.v 3, .v 4, .v 5, .sel .none 0⟩ ⟨false, 0, false, 12, false⟩),
     (w 0x41 0x02 0x300 0x103 0x104 0x105 0xf0000000, .vminn hd ⟨.v 3, .v 4, .v 5, .sel .none 0⟩ ⟨false, 0, false, 12, false⟩),
     (w 0x41 0x03 0x300 0x103 0x104 0x105 0xf0000000, .vmaxn hd ⟨.v 3, .v 4, .v 5, .sel .none 0⟩ ⟨false, 0, false, 12, false⟩),
     (w 0x41 0x04 0x600 0x103 0x104 0x105 0xf0000000, .vmaxi hd ⟨.v 3, .v 4, .v 5, .sel .none 0⟩ ⟨false, 0, false, 24, false⟩),
     (w 0x41 0x05 0x600 0x103 0x104 0x105 0xf0000000, .vmini hd ⟨.v 3, .v 4, .v 5, .sel .none 0⟩ ⟨false, 0, false, 24, false⟩),
     (w 0x41 0x06 0xb0c 0x303 0x104 0x105 0xf0000000, .vcmp hd ⟨.p 3, .v 4, .v 5, .sel .none 0⟩ ⟨false, 3, false, 12, true⟩),
     (w 0x41 0x07 0x300 0x103 0x104 0x105 0x30200000, .vsel hd ⟨.v 3, .v 4, .v 5, .sel (.p 2) 0⟩ ⟨false, 0, false, 12, false⟩)] = true := by decide

/-- MAJ 0x42 to 0x46 (06_vector_rows Tables 7 to 10). -/
theorem test_decode_lanes : decodesAll
    [(w 0x42 0x00 0x300 0x103 0x104 0xf00 0xf0000002, .vcvt hd ⟨.v 3, .v 4, .none, .sel .none 2⟩ ⟨false, 0, false, 12, false⟩),
     (w 0x42 0x01 0x300 0x103 0x104 0x505 0xf0000000, .vscl hd ⟨.v 3, .v 4, .imm 5, .sel .none 0⟩ ⟨false, 0, false, 12, false⟩),
     (w 0x42 0x02 0x300 0x103 0x104 0x105 0xf0000000, .vpack hd ⟨.v 3, .v 4, .v 5, .sel .none 0⟩ ⟨false, 0, false, 12, false⟩),
     (w 0x42 0x03 0x300 0x103 0x104 0xf00 0xf0000000, .vunpk hd ⟨.v 3, .v 4, .none, .sel .none 0⟩ ⟨false, 0, false, 12, false⟩),
     (w 0x42 0x04 0x300 0x103 0x104 0xf00 0xf0000000, .vtag hd ⟨.v 3, .v 4, .none, .sel .none 0⟩ ⟨false, 0, false, 12, false⟩),
     (w 0x43 0x00 0x8c0 0x103 0x104 0x105 0xf0000000, .viadd hd ⟨.v 3, .v 4, .v 5, .sel .none 0⟩ ⟨false, 0, false, 3, true⟩),
     (w 0x43 0x01 0x8c0 0x103 0x104 0x105 0xf0000000, .visub hd ⟨.v 3, .v 4, .v 5, .sel .none 0⟩ ⟨false, 0, false, 3, true⟩),
     (w 0x43 0x02 0x8c0 0x103 0x104 0x105 0xf0000000, .vimul hd ⟨.v 3, .v 4, .v 5, .sel .none 0⟩ ⟨false, 0, false, 3, true⟩),
     (w 0x43 0x03 0x0c0 0x103 0x104 0x105 0xf0000000, .vand hd ⟨.v 3, .v 4, .v 5, .sel .none 0⟩ ⟨false, 0, false, 3, false⟩),
     (w 0x43 0x04 0x0c0 0x103 0x104 0x105 0xf0000000, .vor hd ⟨.v 3, .v 4, .v 5, .sel .none 0⟩ ⟨false, 0, false, 3, false⟩),
     (w 0x43 0x05 0x0c0 0x103 0x104 0x105 0xf0000000, .vxor hd ⟨.v 3, .v 4, .v 5, .sel .none 0⟩ ⟨false, 0, false, 3, false⟩),
     (w 0x43 0x07 0x0c0 0x103 0x104 0x105 0xf0000000, .vshl hd ⟨.v 3, .v 4, .v 5, .sel .none 0⟩ ⟨false, 0, false, 3, false⟩),
     (w 0x43 0x08 0x0c0 0x103 0x104 0x105 0xf0000000, .vshr hd ⟨.v 3, .v 4, .v 5, .sel .none 0⟩ ⟨false, 0, false, 3, false⟩),
     (w 0x43 0x09 0x0c0 0x103 0x104 0x105 0xf0000000, .vsar hd ⟨.v 3, .v 4, .v 5, .sel .none 0⟩ ⟨false, 0, false, 3, false⟩),
     (w 0x43 0x06 0x0c0 0x103 0x104 0xf00 0xf0000000, .vnot hd ⟨.v 3, .v 4, .none, .sel .none 0⟩ ⟨false, 0, false, 3, false⟩),
     (w 0x44 0x00 0x040 0x103 0x104 0x105 0x10600000, .vdot hd ⟨.v 3, .v 4, .v 5, .sel (.v 6) 0⟩ ⟨false, 0, false, 1, false⟩),
     (w 0x45 0x00 0x300 0x103 0x204 0xf00 0xf0000000, .vmov hd ⟨.v 3, .lane false 4, .none, .sel .none 0⟩ ⟨false, 0, false, 12, false⟩),
     (w 0x45 0x01 0x8c0 0x103 0x504 0xf00 0xf0000000, .vlit hd ⟨.v 3, .imm 4, .none, .sel .none 0⟩ ⟨false, 0, false, 3, true⟩),
     (w 0x45 0x02 0x300 0x103 0x004 0xf00 0xf0000000, .vbcst hd ⟨.v 3, .a 4, .none, .sel .none 0⟩ ⟨false, 0, false, 12, false⟩),
     (w 0x45 0x03 0x300 0x103 0x104 0x105 0xf0000000, .vperm hd ⟨.v 3, .v 4, .v 5, .sel .none 0⟩ ⟨false, 0, false, 12, false⟩),
     (w 0x45 0x04 0x300 0x103 0x104 0x105 0x50600000, .vshf hd ⟨.v 3, .v 4, .v 5, .sel (.imm 6) 0⟩ ⟨false, 0, false, 12, false⟩),
     (w 0x46 0x00 0x300 0x103 0x104 0xf00 0xf0000001, .vred hd ⟨.v 3, .v 4, .none, .sel .none 1⟩ ⟨false, 0, false, 12, false⟩),
     (w 0x46 0x01 0xb00 0x103 0x104 0xf00 0xf0000001, .vscan hd ⟨.v 3, .v 4, .none, .sel .none 1⟩ ⟨false, 0, false, 12, true⟩),
     (w 0x46 0x02 0x300 0x103 0x104 0xf00 0xf0000000, .vcmpt hd ⟨.v 3, .v 4, .none, .sel .none 0⟩ ⟨false, 0, false, 12, false⟩)] = true := by decide

/-- MAJ 0x47 to 0x49 and 0x60 (06_vector_rows R193 to R199, Table 13). -/
theorem test_decode_lanePredicates : decodesAll
    [(w 0x47 0x00 0x000 0xf00 0x304 0xf00 0xf0000003, .vany hd ⟨.none, .p 4, .none, .sel .none 3⟩),
     (w 0x47 0x01 0x000 0xf00 0x304 0xf00 0xf0000003, .vall hd ⟨.none, .p 4, .none, .sel .none 3⟩),
     (w 0x47 0x02 0x300 0x003 0x304 0xf00 0xf0000000, .vpopc hd ⟨.a 3, .p 4, .none, .sel .none 0⟩ 12),
     (w 0x47 0x03 0x302 0x303 0x004 0xf00 0xf0000000, .qsetLen hd ⟨.p 3, .a 4, .none, .sel .none 0⟩ true 12),
     (w 0x47 0x03 0x004 0x303 0x004 0xf00 0xf0000000, .qsetBc hd ⟨.p 3, .a 4, .none, .sel .none 0⟩ false),
     (w 0x47 0x03 0x008 0x303 0x304 0x305 0x50800000, .qsetFn hd ⟨.p 3, .p 4, .p 5, .sel (.imm 8) 0⟩ false),
     (w 0x47 0x03 0x00c 0x303 0x304 0xf00 0xf0000004, .qsetCopy hd ⟨.p 3, .p 4, .none, .sel .none 4⟩ false),
     (w 0x48 0x00 0x1c0 0x103 0xf00 0xf00 0xf0000000, .vrng hd ⟨.v 3, .none, .none, .sel .none 0⟩ ⟨false, 0, false, 7, false⟩),
     (w 0x48 0x01 0x1c0 0x103 0x104 0x105 0x50600000, .vhsh hd ⟨.v 3, .v 4, .v 5, .sel (.imm 6) 0⟩ ⟨false, 0, false, 7, false⟩),
     (w 0x49 0x00 0x640 0x103 0x104 0x105 0xf0000000, .vatc hd ⟨.v 3, .v 4, .v 5, .sel .none 0⟩ ⟨false, 0, false, 25, false⟩),
     (w 0x49 0x01 0x300 0x103 0x104 0xf00 0xf0000000, .vatf hd ⟨.v 3, .v 4, .none, .sel .none 0⟩ ⟨false, 0, false, 12, false⟩),
     (w 0x60 0x00 0x326 0x103 0x104 0xf00 0xf0000000, .fexp2 hd ⟨.v 3, .v 4, .none, .sel .none 0⟩ ⟨true, 1, true, 12, false⟩),
     (w 0x60 0x01 0x326 0x103 0x104 0xf00 0xf0000000, .flog2 hd ⟨.v 3, .v 4, .none, .sel .none 0⟩ ⟨true, 1, true, 12, false⟩),
     (w 0x60 0x02 0x326 0x103 0x104 0xf00 0xf0000000, .frcp hd ⟨.v 3, .v 4, .none, .sel .none 0⟩ ⟨true, 1, true, 12, false⟩),
     (w 0x60 0x03 0x326 0x103 0x104 0xf00 0xf0000000, .frsq hd ⟨.v 3, .v 4, .none, .sel .none 0⟩ ⟨true, 1, true, 12, false⟩),
     (w 0x60 0x04 0x326 0x103 0x104 0xf00 0xf0000000, .fsqrt hd ⟨.v 3, .v 4, .none, .sel .none 0⟩ ⟨true, 1, true, 12, false⟩),
     (w 0x60 0x05 0x326 0x103 0x104 0xf00 0xf0000000, .fsin hd ⟨.v 3, .v 4, .none, .sel .none 0⟩ ⟨true, 1, true, 12, false⟩),
     (w 0x60 0x06 0x326 0x103 0x104 0xf00 0xf0000000, .fcos hd ⟨.v 3, .v 4, .none, .sel .none 0⟩ ⟨true, 1, true, 12, false⟩),
     (w 0x60 0x07 0x326 0x103 0x104 0xf00 0xf0000000, .ftanh hd ⟨.v 3, .v 4, .none, .sel .none 0⟩ ⟨true, 1, true, 12, false⟩),
     (w 0x60 0x08 0x326 0x103 0x104 0xf00 0xf0000000, .fsigm hd ⟨.v 3, .v 4, .none, .sel .none 0⟩ ⟨true, 1, true, 12, false⟩),
     (w 0x60 0x09 0x326 0x103 0x104 0xf00 0xf0000000, .ferf hd ⟨.v 3, .v 4, .none, .sel .none 0⟩ ⟨true, 1, true, 12, false⟩)] = true := by decide

/-- MAJ 0x68 to 0x78 (10_queues Tables 4 and 8; 07_accumulators Tables 3, 4 and 7). -/
theorem test_decode_matrix : decodesAll
    [(w 0x68 0x00 0x000 0x103 0x004 0x505 0xf0000000, .xbmp hd ⟨.v 3, .a 4, .imm 5, .sel .none 0⟩ false 0),
     (w 0x68 0x01 0x01a 0x003 0x004 0x505 0xf0000000, .xrle hd ⟨.a 3, .a 4, .imm 5, .sel .none 0⟩ true 5),
     (w 0x68 0x02 0x000 0x103 0x004 0x005 0xf0000000, .xcsr hd ⟨.v 3, .a 4, .a 5, .sel .none 0⟩ false 0),
     (w 0x68 0x04 0x000 0x508 0xf00 0xf00 0xf0000000, .xrate hd ⟨.imm 8, .none, .none, .sel .none 0⟩),
     (w 0x68 0x05 0x002 0xf00 0xf00 0xf00 0xf0000000, .xoff hd ⟨.none, .none, .none, .sel .none 0⟩ true),
     (w 0x68 0x06 0x000 0xf00 0xf00 0xf00 0xf0000000, .xend hd ⟨.none, .none, .none, .sel .none 0⟩),
     (w 0x68 0x07 0x000 0x003 0xf00 0xf00 0xf0000000, .xcnt hd ⟨.a 3, .none, .none, .sel .none 0⟩),
     (w 0x70 0x00 0x000 0x603 0x504 0xf00 0xf0000000, .mzero hd ⟨.acc 3, .imm 4, .none, .sel .none 0⟩),
     (w 0x70 0x01 0x000 0x603 0x004 0xf00 0xf0000000, .manc hd ⟨.acc 3, .a 4, .none, .sel .none 0⟩),
     (w 0x70 0x02 0xac0 0x103 0x505 0xf00 0xf0000000, .mldb hd ⟨.v 3, .imm 5, .none, .sel .none 0⟩ ⟨false, 0, false, 11, true⟩),
     (w 0x71 0x01 0x2c0 0x603 0x104 0xf00 0xf0000000, .mmas hd ⟨.acc 3, .v 4, .none, .sel .none 0⟩ ⟨false, 0, false, 11, false⟩),
     (w 0x71 0x02 0xac0 0x603 0x104 0xf00 0xf0000000, .mmat hd ⟨.acc 3, .v 4, .none, .sel .none 0⟩ ⟨false, 0, false, 11, true⟩),
     (w 0x72 0x00 0x30a 0x103 0x604 0x505 0xf0000000, .mrd hd ⟨.v 3, .acc 4, .imm 5, .sel .none 0⟩ ⟨true, 2, false, 12, false⟩),
     (w 0x72 0x01 0x2c0 0x603 0x104 0x505 0xf0000000, .mwr hd ⟨.acc 3, .v 4, .imm 5, .sel .none 0⟩ ⟨false, 0, false, 11, false⟩),
     (w 0x72 0x02 0x2c0 0x603 0x104 0x505 0xf0000000, .macc hd ⟨.acc 3, .v 4, .imm 5, .sel .none 0⟩ ⟨false, 0, false, 11, false⟩),
     (w 0x78 0x00 0x000 0x103 0x004 0xf00 0xf0000000, .xsnd hd ⟨.v 3, .a 4, .none, .sel .none 0⟩),
     (w 0x78 0x01 0x000 0x103 0x504 0xf00 0xf0000000, .xrcv hd ⟨.v 3, .imm 4, .none, .sel .none 0⟩)] = true := by decide

/-- The fates of 03_encoding Table 5 that are instructions of their own. -/
theorem test_decode_fates : decodesAll
    [(w 0xC0 0x12 0 0 0 0 7, .pfi hd 0x12 7), (w 0xC5 0x12 0 0 0 0 7, .hnt hd 0xC5 0x12 7),
     (w 0x85 0x01 0 0 0 0 7, .reservedMajorOpcode hd 0x85 0x01 7), (w 0x09 0x01 0 0 0 0 7, .illegalMajorOpcode hd 0x09 0x01 7),
     (w 0xFF 0x01 0 0 0 0 7, .portableBlockHeader hd 0x01 7), (w 0x03 0x05 0 0 0 0 7, .fan hd 7)] = true := by decide

/-- The words the spec's examples print (08_memories, 09_ordering, 10_queues to 13_counters, 16_programs, 17, 18). -/
theorem test_decode_examples : decodesAll
    [(0x2800000FF00700500650218400700000#128, .gld ⟨0, 0, 0, 0xFF, 7⟩ ⟨.a 5, .a 6, .imm 2, .sel (.a 7) 0⟩ 2 3),
     (0x3001000FF00000A501F00284F0040001#128, .rel hd ⟨.a 10, .imm 1, .none, .sel .none 0x40001⟩ 2 5),
     (0x6803000FF003114004540180F0000000#128, .xidx ⟨0, 0, 0, 0xFF, 3⟩ ⟨.v 20, .a 4, .imm 64, .sel .none 0⟩ false 0 6),
     (0x2B00000FF000004005F00002F0000000#128, .glev hd ⟨.a 4, .a 5, .none, .sel .none 0⟩ 1),
     (0x3101000FF000003008F00000F0000000#128, .st64 hd ⟨.a 3, .a 8, .none, .sel .none 0⟩),
     (0x7100900F0002602128F00AC0F0000000#128, .mma ⟨9, 0, 0, 0xF0, 2⟩ ⟨.acc 2, .v 40, .none, .sel .none 0⟩
       ⟨false, 0, false, 11, true⟩)] = true := by decide

/-- An unassigned minor opcode and a reserved selector class have no instruction (03_encoding R67, R73). -/
theorem test_decode_refuses : decode (w 0x04 0x0E 0 0x003 0x004 0x505 0xF0000000) = .error (.unassignedMinor hd 4) ∧
    decode (w 0x04 0x00 0 0x803 0x004 0x505 0xF0000000) = .error (.badField hd 4) := by decide

/-- The host's entry: the same decoder on the same bits. -/
theorem test_decodeTableWord : decodeTableWord 128 0 = some (.nop ⟨0, 0, 0, 0, 0⟩ ⟨.a 0, .a 0, .a 0, .sel (.a 0) 0⟩) := by decide

/-! ## Well-formedness: each check refuses a term -/

def o3 : Ops := ⟨.a 3, .a 4, .a 5, .sel .none 0⟩
def r3 : Ops := ⟨.v 3, .v 4, .v 5, .sel .none 0⟩
def f32 : VMod := ⟨false, 0, false, 12, false⟩

theorem smoke_wellFormed : wellFormed (.add hd o3) = true ∧ wellFormed (.vadd hd r3 f32) = true := by decide

/-- A step is no word; extra bits, common modifiers and opcodes outside the range of their fate. -/
theorem smoke_not_encodable : [.muster 0, .add hd { o3 with c := .sel .none 1 }, .vneg hd r3 { f32 with x := true },
    .vneg hd r3 { f32 with rm := 1 }, .vneg hd r3 { f32 with ftz := true }, .vred hd r3 { f32 with z := true },
    .vadd hd r3 { f32 with rm := 5 }, .batm hd ⟨.v 3, .a 4, .none, .sel .none 16⟩ 0 12, .hnt hd 0xE0 0 0,
    .reservedMajorOpcode hd 0xC0 0 0, .illegalMajorOpcode hd 0x00 0 0].all (fun i => !encodable i && !wellFormed i) = true := by
  decide

/-- A reserved value, a class not permitted, a literal without use, an element type, a fed operand (03_encoding Table 6). -/
theorem smoke_not_wellFormed : [.add hd { o3 with d := .v 3 }, .add hd { o3 with a := .lit }, .add hd { o3 with c := .lit 1 },
    .add hd { o3 with b := .fed }, .trap hd ⟨.imm 16, .none, .none, .sel .none 0⟩, .vadd hd r3 { f32 with ty := 3 },
    .cmp hd ⟨.p 1, .a 4, .a 5, .sel .none 0⟩ 1 0 0, .rdv hd ⟨.none, .none, .none, .sel .none 0⟩ false true].all
      (fun i => encodable i && !wellFormed i) = true := by decide

/-! ## The spec's worked examples -/

/-- 03_encoding R66: the majority of p1, p2 and p3 is TT 0xE8. -/
theorem test_guard_majority : [0, 1, 2, 3, 4, 5, 6, 7].map (fun i => (0xE8#8).getLsbD i)
    = [false, false, false, true, false, true, true, true] := by decide

/-- 04_numbers R121: keyed selection with NaNs, and signed zeros. -/
theorem test_keys : keySelect true 0x4020000000000007 0x7FC0000000000009 = 0x7FC0000000000009 ∧
    keySelect true 0xFFC000000000000C 0x7FC0000000000009 = 0x7FC0000000000009 ∧
    keySelect true 0x4020000000000007 0x4020000000000003 = 0x4020000000000003 ∧
    keySelect false 0x8000000000000001 0x0000000000000002 = 0x8000000000000001 := by decide

/-- 04_numbers, the first accumulation example: anchor 40, then 3.375 in FP32, inexact (event 4). -/
theorem test_accumulate : [(false, 27, -3), (false, 3, -25), (false, 1, -25), (true, 1, -25)].foldl
      (fun c (p : Bool × Nat × Int) => (accAdd c (.fin p.1 p.2.1 p.2.2 false) 40).1) 0 = 0x3600002 ∧
    (accOut 12 0 false 0 0x3600002 40).1 = 0x40580000 := by decide

/-- 04_numbers, the second: intermediate wraps leave no mark, and a value out of range converts to the largest BF16. -/
theorem test_accumulate_wraps : [-1, (2 : Int) ^ 95, 2 ^ 95].foldl
      (fun c p => (accAdd c (.fin (decide (p < 0)) p.natAbs 0 false) 64).1) 0 = 0xFFFFFFFFFFFFFFFFFFFFFFFF ∧
    [(2 : Int) ^ 95, 2 ^ 95, -1].foldl
      (fun c p => (accAdd c (.fin (decide (p < 0)) p.natAbs 0 false) 64).1) 0 = 0xFFFFFFFFFFFFFFFFFFFFFFFF ∧
    (accOut 11 0 false 0 0xFFFFFFFFFFFFFFFFFFFFFFFF 64).1 = 0x7F7F := by decide

/-- 04_numbers R123, R124: the combine of two triples, and 06_vector_rows: its finalization. -/
theorem test_combine : (combine ⟨0x40400000, 0x3FC00000, [0x40000000, 0xBF800000]⟩ ⟨0x40A00000, 0x3F800000, [0x3F800000, 0x40800000]⟩).1
      = ⟨0x40A00000, 0x3FB00000, [0x3FC00000, 0x40700000]⟩ ∧
    (finalize ⟨0x40A00000, 0x3FB00000, [0x3FC00000, 0x40700000]⟩).1 = [0x3F8BA2E9, 0x402E8BA3] := by decide

/-- 06_vector_rows: the positions that govern elements. -/
theorem test_positions : posOf 12 5 = 20 ∧ posOf 23 3 = 48 ∧ posOf 11 200 = 400 ∧ posOf 16 9 = 0 := by decide

/-- 06_vector_rows R191: a sum over four FP16 lanes is ((1 + 2048) + (1 + 1)) = 2050. -/
theorem test_tree : (canonicalTree (fun _ a b => finish 10 0 false 0 (addV 0 (decodeElem 10 false 127 a) (decodeElem 10 false 127 b)))
    [some 0x3C00, some 0x6800, some 0x3C00, some 0x3C00]).1 = some 0x6801 := by decide

/-- 05_control_registers R160: the tile with lidx 19 runs iteration 2 of a (4, 5) nest, indices (0, 2); that with lidx 13 none. -/
theorem test_nest : let e : Nest := { n := 2, perm := 4, ab := 4, t := [4, 5, 0, 0] }
    let at_ (x : Nat) : State := { State.reset with core := .tile 0 x 0 }
    (at_ 19).landNest 1 e 0 true = [.p 0 1 true, .a 0 5 2, .a 0 4 0] ∧
    (at_ 13).landNest 1 e 0 true = [.p 0 1 false, .a 0 5 0, .a 0 4 0] := by decide

/-- Stream `k` of tile 0 of bay 0 issuing after reset. -/
def on (k : Nat) : State := { State.reset with core := .tile 0 0 k }
/-- With `v` in its a-register `n`. -/
def withA (k n : Nat) (v : Word) (s : State) : State := s.setTile 0 0 ((s.tile 0 0).setStrm k { (s.tile 0 0).strm k with a := put ((s.tile 0 0).strm k).a n v })
/-- The writes a next state has put in flight on tile 0. -/
def posted (x : Host.Outcome State Fault Refusal) : List (Nat × List Land) :=
  match x with
  | .next t => ((t.tile 0 0).pend.map (fun r => (r.due, r.what)))
  | _ => []

/-- 05_control_registers Table 11: division corners. -/
theorem test_div : posted (exec (.div hd ⟨.a 1, .a 2, .imm 0, .sel .none 0⟩ false) (withA 0 2 5 (on 0)))
      = [(20, [.a 0 1 0xFFFFFFFFFFFFFFFF])] ∧
    posted (exec (.div hd ⟨.a 1, .a 2, .imm 0xFF, .sel .none 0⟩ false) (withA 0 2 0x8000000000000000 (on 0)))
      = [(20, [.a 0 1 0x8000000000000000])] ∧
    posted (exec (.rem hd ⟨.a 1, .a 2, .imm 0xFF, .sel .none 0⟩ false) (withA 0 2 0x8000000000000000 (on 0)))
      = [(20, [.a 0 1 0])] := by decide

/-- 05_control_registers Table 11: shifts by 64 and more, and a write of a0. -/
theorem test_shift : posted (exec (.shl hd ⟨.a 1, .a 2, .imm 64, .sel .none 0⟩) (withA 0 2 5 (on 0))) = [(1, [.a 0 1 0])] ∧
    posted (exec (.sar hd ⟨.a 1, .a 2, .imm 100, .sel .none 0⟩) (withA 0 2 0x8000000000000000 (on 0)))
      = [(1, [.a 0 1 0xFFFFFFFFFFFFFFFF])] ∧
    posted (exec (.add hd ⟨.a 0, .a 2, .imm 1, .sel .none 0⟩) (on 0)) = [(1, [])] := by decide

/-- 05_control_registers: BR issued at tc 20 has its target from tc 25, with IDLE 2 at 27; the words due at 21 to 24 stay. -/
theorem test_branch : let u : Strm := { next := .word 3 9 21, xfer := some { fn := 3, off := 50, tc := 20 } }
    (u.turnTo 24).next = .word 3 9 21 ∧ (u.turnTo 25).next = .word 3 50 25 := by decide

/-- 10_queues R289: tile 3's message reaches tile 4 in tc 38 and tile 9 in tc 42, sent in tc 30. -/
theorem test_exchange : let s : State := (on 8).setBay 0 { (on 8).bay 0 with tclk := 30 }
    let s : State := { s with core := .tile 0 3 8 }
    (match exec (.xsnd hd ⟨.v 10, .lit, .none, .lit 0x0210⟩) s with
      | .next t => [(t.tile 0 4).inbox.map (·.tc), (t.tile 0 9).inbox.map (·.tc), (t.tile 0 5).inbox.map (·.tc)]
      | _ => []) = [[38], [42], []] := by decide

/-- 15_traps: tvbase 0x2_0000 and entry 0x04D naming 0x1_4000: the handler of a rank trap's delivery. -/
theorem test_delivery : let w : Steward := { tvbase := 0x20000, tc := 7, ram := writeBytes [] (0x20000 + 8 * 0x04D) (leBytes 8 0x8000000000014000) }
    (w.deliver 0x04D true true 0x300).strm.next = .word 0 0x14000 12 := by decide

/-- A steward core transfers: five tc after a branch its target counts. -/
theorem test_steward_branch : let w : Steward := { running := true, tc := 6, strm := { next := .word 0 0x70 7, xfer := some { fn := 0, off := 0x100, tc := 2 } } }
    let s : State := { State.reset with stewards := put State.reset.stewards 0 w }
    (((s.stewardBegin 0).steward 0).strm.next) = .word 0 0x100 7 := by decide

/-! ## Witnesses: for each statement with hypotheses, states and operands that meet them -/

/-- `Runs`, as a test. -/
def runsB (i : Instr) (s : State) : Bool :=
  (match streamsOf i with
    | some (ks, st) => s.executes ks st
    | none => true) && (match pHead i with
    | some h => guardP h s.strm
    | none => true) && (match qHead i with
    | some h => guardQ h s.strm != 0
    | none => true) && (formCauses i).isEmpty

theorem runs_of {i : Instr} {s : State} (e : runsB i s = true) : Runs i s := by
  unfold runsB at e
  simp only [Bool.and_eq_true, List.isEmpty_iff] at e
  obtain ⟨⟨⟨h1, h2⟩, h3⟩, h4⟩ := e
  refine ⟨fun ks st hk => ?_, fun h hp => ?_, fun h hq => ?_, h4⟩
  · rw [hk] at h1; exact h1
  · rw [hp] at h2; exact h2
  · rw [hq] at h3; simpa using h3

/-- Whether every word runs in its state. -/
def allRun (l : List (Instr × State)) : Bool := l.all (fun p => runsB p.1 p.2)

/-- Steward core 0 issuing. -/
def onStew : State := { State.reset with core := .steward 0 }
/-- Stream `k` issuing with all of the scratchpad of bay 0 carved out as banks. -/
def onBank (k : Nat) : State :=
  let y := (on k).bay 0
  (on k).setBay 0 (y.setCluster 0 { y.cluster 0 with carve := 0x0808080808080808 })
/-- No operand, and the shapes of operands the witnesses use. -/
def o0 : Ops := ⟨.none, .none, .none, .sel .none 0⟩
def oD (d : Sel) : Ops := ⟨d, .none, .none, .sel .none 0⟩
def oDA (d a : Sel) : Ops := ⟨d, a, .none, .sel .none 0⟩
def oDAB (d a b : Sel) : Ops := ⟨d, a, b, .sel .none 0⟩
def oAll (d a b c : Sel) : Ops := ⟨d, a, b, .sel c 0⟩
/-- Row `n` of tile 0 replaced. -/
def withRow (n : Nat) (r : Row) (s : State) : State := s.setTile 0 0 { s.tile 0 0 with rows := put (s.tile 0 0).rows n r }
/-- Stream `k` of tile 0 replaced by `f` of it. -/
def withStrm (k : Nat) (f : Strm → Strm) (s : State) : State := s.setTile 0 0 ((s.tile 0 0).setStrm k (f ((s.tile 0 0).strm k)))
/-- Tile 0 and bay 0 changed. -/
def withTile (f : Tile → Tile) (s : State) : State := s.setTile 0 0 (f (s.tile 0 0))
def withBay (f : Bay → Bay) (s : State) : State := s.setBay 0 (f (s.bay 0))
/-- Whether a reading succeeds. -/
def okB {α β : Type} : Except α β → Bool
  | .ok _ => true
  | .error _ => false
/-- Whether an instruction completes. -/
def nextB (x : Host.Outcome State Fault Refusal) : Bool :=
  match x with
  | .next _ => true
  | _ => false

theorem witness_DecodeOfEncode : encodable (.add hd o3) = true ∧ encodable (.cmp hd ⟨.p 1, .a 3, .lit, .lit 0x3E8⟩ 2 2 0) = true := by
  decide

theorem witness_EncodeOfDecode : decode (w 0x04 0x00 0 0x003 0x004 0x505 0xF0000000)
    = .ok (.add hd ⟨.a 3, .a 4, .imm 5, .sel .none 0⟩) := by decide

/-- A tile with a word due, and a steward core with one. -/
def fetchState : State := State.reset.withFetchWord 128 (w 0x04 0x00 0 0x003 0x004 0x505 0xF0000000).toNat
def stewardFetch : State :=
  let v : Steward := { running := true, ram := writeBytes [] 0 (leBytes 16 (w 0x04 0x00 0 0x003 0x004 0x505 0xF0000000).toNat),
                       strm := { next := .word 0 0 1 } }
  { State.reset with phase := .service, turn := .steward 0, stewards := put State.reset.stewards 0 v }

theorem witness_StepRunsTheDecodedWord : fetchState.agenda = [] ∧ fetchState.turn = .issue 0 [(0, 0)] ∧
    fetchState.dueWord (.tile 0 0 0) ((fetchState.tile 0 0).strm 0) (fetchState.bay 0).tclk
      = some (0, 0, w 0x04 0x00 0 0x003 0x004 0x505 0xF0000000) ∧ fetchState.badFetch (.tile 0 0 0) 0 0 = false := by decide

theorem witness_StewardStep : stewardFetch.agenda = [] ∧ stewardFetch.turn = .steward 0 ∧
    ((stewardFetch.stewardTurn 0).steward 0).running = true ∧ (stewardFetch.stewardTurn 0).phase ≠ .boot ∧
    (stewardFetch.stewardTurn 0).takeable 0 = none ∧
    (stewardFetch.stewardTurn 0).dueWord (.steward 0) ((stewardFetch.stewardTurn 0).steward 0).strm
      ((stewardFetch.stewardTurn 0).steward 0).tc = some (0, 0, w 0x04 0x00 0 0x003 0x004 0x505 0xF0000000) := by decide

theorem witness_Agenda : ({ State.reset with agenda := [.muster 0] } : State).agenda = [.muster 0] := rfl

theorem witness_StepKeepsMemories : memoriesOk State.reset ∧ nextB (step fetchState) = true := by
  refine ⟨⟨rfl, rfl, fun k => ?_⟩, by decide⟩
  by_cases h : k < 9
  · simp only [State.steward, nth, State.reset]; simp [h, memWf, sortedFrom]
  · simp only [State.steward, nth, State.reset]; simp [h, memWf, sortedFrom]

theorem witness_StepKeepsTrapRegisters : (∀ k, trapRegistersOk (State.reset.steward k)) ∧ nextB (step fetchState) = true := by
  refine ⟨fun k => ?_, by decide⟩
  by_cases h : k < 9
  · simp only [State.steward, nth, State.reset]; simp [h, trapRegistersOk]
  · simp only [State.steward, nth, State.reset]; simp [h, trapRegistersOk]

/-- A page of each CL and WP. -/
def page (cl wp : Nat) : Page := { loc := 384, size := 65536, w := true, x := false, cl := cl, wp := wp, ev := 0, zs := false, c := false, co := 0 }

theorem witness_MemoryHoldsWhatIsWritten : memWf [(5, 7)] = true ∧ memWf State.reset.mem = true ∧
    (State.reset.homeLine 3).bad = false ∧ (State.reset.l2Line 3).bad = false ∧ (State.reset.bay 0).lineCapacity 0 ≠ 0 ∧
    State.reset.dies.toList.all (fun d => d.length ≤ dieLines) = true ∧
    [(0, 0), (1, 1), (2, 0), (2, 2)].all (fun (p : Nat × Nat) => !(State.reset.readLine 0 0 (page p.1 p.2)).1.bad
      && ((State.reset.writeSeg 0 0 (page p.1 p.2) (3, 127, [7])).2).isNone) = true := by decide

theorem witness_OutsideOrMisencodedWordsTrap : streamsOf (.ldl hd o3 0 0 false) = some ([0], true) ∧
    (on 1).executes [0] true = false ∧ (on 0).executes allStreams true = true ∧ guardP hd (on 0).strm = true ∧
    formCauses (.add hd { o3 with d := .v 3 }) ≠ [] ∧ (on 3).executes [3, 4] false = true ∧ guardQ hd (on 3).strm ≠ 0 ∧
    formCauses (.vadd hd r3 { f32 with ty := 3 }) ≠ [] := by decide

/-- CT one tc after a write of its p1 has landed. -/
def late : State := withTile (fun t => { t with hist := [(0, .p 0 1)] }) (withBay (fun y => { y with tclk := 1 }) (on 0))

theorem witness_SuppressedWords : (on 0).executes allStreams true = true ∧ guardP { hd with tt := 0 } (on 0).strm = false ∧
    (on 7).executes [7] false = true ∧ guardP { hd with tt := 0 } (on 7).strm = false ∧
    (on 3).executes [3, 4] false = true ∧ guardQ { hd with tt := 0 } (on 3).strm = 0 ∧
    samplesGuard (.holdStep { hd with tt := 0x80, pa := 1 } o0) = true ∧ guardP { hd with tt := 0x80, pa := 1 } late.strm = false ∧
    late.horizonHit (guardTargets { hd with tt := 0x80, pa := 1 } late) = true := by decide

theorem witness_GuardTruthTable : hd.tt = 0xFF ∧ ({ hd with tt := 0 } : Head).tt = 0 := by decide

theorem witness_IssueStaysInItsBay : isWord (.add hd o3) = true ∧ OnTile (on 0) 0 0 0 ∧ nextB (exec (.add hd o3) (on 0)) = true := by
  refine ⟨by decide, ⟨rfl, by decide, by decide, by decide⟩, by decide⟩

theorem witness_RegisterLandings : OnTile (on 0) 0 0 0 ∧
    (({ ({} : Tile) with pend := [{ due := 5, issued := 4, strm := 0, addr := 0, evs := [], what := [.a 0 31 7] }] } : Tile).pend.length = 1) ∧
    sortedFrom ({} : Tile).slots 0 = true ∧ ((({} : Tile).slot 0 0).poison = false) ∧
    (nth ({} : Tile).sems 15 {}).count.toNat + (5#32).toNat < 2 ^ 32 ∧
    2 ^ 32 ≤ (nth ({ ({} : Tile) with sems := put ({} : Tile).sems 15 { count := 0xFFFFFFFF } } : Tile).sems 15 {}).count.toNat
      + (1#32).toNat := by
  refine ⟨⟨rfl, by decide, by decide, by decide⟩, by decide, by decide, by decide, by decide, by decide⟩

theorem witness_RowMerge : (List.replicate 128 0x3F800000).length = lanes 12 ∧ (List.replicate 128 0).length = lanes 12 ∧
    (∀ e ∈ List.replicate 128 0x3F800000, e < 2 ^ elemWidth 12) ∧ (∀ e ∈ List.replicate 128 0, e < 2 ^ elemWidth 12) := by decide

theorem witness_RegisterNames : (31#5 : BitVec 5) ≠ 0 ∧ 16 ≤ (31#5 : BitVec 5).toNat ∧ (15#5 : BitVec 5).toNat < 16 ∧
    128 ≤ (255#8 : BitVec 8).toNat := by decide

/-- A tile whose bay has function 0 with a CT body of four words, which CT executes at offset 1. -/
def inCode (k : Nat) : State :=
  withStrm k (fun u => { u with cur := (0, 1), next := .word 0 2 0 })
    (withBay (fun y => { y with
      fnCount := 1, nstage := 1
      clusters := Vector.ofFn (fun c : Fin 8 => { y.clusters[c.val] with code := [{ fn := 0, bodies := (List.range 9).map (fun _ => some [0, 0, 0, 0]), size := 64, entered := true, succ := [], live := [] }] }) }) (on k))

theorem witness_SequencingWords : allRun [(.nop hd o0, on 0), (.wait hd (oD (.imm 127)), inCode 0),
    (.wait hd ⟨.lit, .none, .none, .lit 0xFFFFFFFF⟩, inCode 0), (.halt hd o0, on 8)] = true ∧
    (inCode 0).strm.next = .word 0 2 0 := by decide

theorem witness_BranchWords : allRun [(.btgt hd ⟨.b 0, .lit, .none, .lit 3⟩ false, on 0), (.btgt hd (oDA (.b 7) (.a 1)) true, on 0),
      (.btgt hd (oDA (.b 7) (.a 1)) false, onStew), (.br hd (oD (.b 0)), inCode 0)] = true ∧
    ((on 0).uintVal (.a 1) (.sel .none 0)).extractLsb' 24 8 = 0#8 ∧ (inCode 0).inDelaySlot = false ∧
    (inCode 0).badTarget ((inCode 0).strm.readB 0) true true = false ∧
    (withStrm 0 (fun u => { u with xfer := some { fn := 0, off := 0, tc := 0 } }) (withBay (fun y => { y with tclk := 4 }) (inCode 0))).inDelaySlot = true ∧
    (withStrm 0 (fun u => { u with b := put u.b 0 4 }) (inCode 0)).badTarget 4 true true = true := by decide

theorem witness_JointAndCallWords : allRun [(.rdv hd o0 false false, on 1), (.rdv hd o0 true true, on 1), (.safe hd o0, on 0), (.call hd (oD (.b 0)), inCode 3),
      (.ret hd (oD (.b 0)), inCode 3), (.ret hd (oD (.b 0)), on 3), (.call hd (oD (.b 0)), onStew), (.ret hd (oD (.b 0)), onStew)] = true ∧
    (inCode 3).inDelaySlot = false ∧ (inCode 3).badTarget ((inCode 3).strm.readB 0) false false = false ∧
    (inCode 3).lateWrite (guardTargets hd (inCode 3) ++ [.b 3 0]) = false ∧ ((inCode 3).bay 0).resident 0 = true ∧ (on 3).badReturn 0 = true ∧
    (inCode 3).badReturn ((inCode 3).strm.readB 0) = false ∧ onStew.badTarget (onStew.strm.readB 0) false true = false ∧
    onStew.badTarget (onStew.strm.readB 0) false false = false ∧ onStew.inDelaySlot = false := by decide

/-- A rank whose collective 5 was accepted long before. -/
def accepted : State := withBay (fun y => { y with tclk := 100, ep := { y.ep with next := 6, opened := 1, colls := [{ id := 5, record := [], landed := 10, addr := 0, tile := 0, present := [], opened := true, delivered := false }] } }) (on 0)

theorem witness_HoldWords : allRun [(.holdTok hd (oD (.a 1)), on 0), (.holdSem hd (oDA (.imm 15) (.imm 0)), on 0), (.holdBc hd (oDA (.imm 15) (.a 1)), on 0),
      (.holdStep hd o0, on 0), (.holdCol hd ⟨.lit, .none, .none, .lit 5⟩, accepted)] = true ∧
    (on 0).horizonHit (guardTargets hd (on 0) ++ selTargets (.a 1) (on 0) ++ maskTargets ((on 0).uintVal (.a 1) (.sel .none 0))) = false ∧
    (on 0).horizonHit (guardTargets hd (on 0) ++ selTargets (.imm 0) (on 0) ++ [.sem 15]) = false ∧
    ((on 0).sem 15).ovf = false ∧ ((on 0).intVal (.imm 0) (.sel .none 0)).toNat ≤ ((on 0).sem 15).count.toNat ∧
    (on 0).horizonHit (guardTargets hd (on 0) ++ selTargets (.a 1) (on 0)) = false ∧ (on 0).horizonHit (guardTargets hd (on 0)) = false ∧
    (accepted.intVal .lit (.lit 5)).toNat = 5 ∧ accepted.horizonHit (guardTargets hd accepted ++ selTargets .lit accepted) = false ∧
    (accepted.bay 0).acceptedBy 5 accepted.tc = true := by decide

theorem witness_TrapRequestAndHintWords : allRun [(.trap hd (oD (.imm 15)), on 0), (.fan hd 0, on 0), (.sysc hd (oDA (.imm 127) (.a 1)), on 0)] = true ∧
    guardP hd (on 0).strm = true ∧ guardP { hd with tt := 0 } (on 0).strm = false ∧ ((on 0).bay 0).sysq.length < 256 ∧
    256 ≤ ((withBay (fun y => { y with sysq := List.replicate 256 0 }) (on 0)).bay 0).sysq.length ∧
    (0x100000000#80).getLsbD 32 = true ∧ ((on 0).bay 0).fnCount ≤ ((0x100000000#80).extractLsb' 0 32).toNat ∧
    ((0x100000000#80).extractLsb' 0 32).toNat < ((inCode 0).bay 0).fnCount := by decide

/-- CT inside a loop of 3 trips and 2 stages, at its first iteration and at its last. -/
def looping (i : Nat) : State := withStrm 0 (fun u => { u with lcnt := BitVec.ofNat 40 i, lbndN := 3, lbndS := 2 }) (inCode 0)
/-- CT with a nest of (4, 64) trips, and the registers it is defined from. -/
def nested (j : Nat) : State := withStrm 0 (fun u => { u with nest := { n := 2, perm := 4, ab := 4, t := [4, 64, 0, 0], j := BitVec.ofNat 64 j } }) (inCode 0)

theorem witness_LoopWords : allRun [(.lpset hd ⟨.b 0, .lit, .imm 8, .lit 3⟩, on 0), (.lpset hd (oDAB (.b 0) (.imm 0) (.imm 1)), inCode 0), (.lpend hd (oD (.b 0)), on 0),
      (.lpend hd (oD (.b 0)), looping 0), (.lpend hd (oD (.b 0)), looping 3), (.lndef hd (oDAB (.a 4) (.imm 2) (.imm 1)), on 0),
      (.lngo hd (oDA (.p 1) (.b 0)), nested 0), (.lngo hd (oDA (.p 1) (.b 0)), inCode 0), (.lnnext hd (oDA (.p 1) (.b 0)), nested 0),
      (.lnnext hd (oDA (.p 1) (.b 0)), nested 1)] = true ∧
    (on 0).tripCount ⟨.b 0, .lit, .imm 8, .lit 3⟩ ≠ 0 ∧ (inCode 0).tripCount (oDAB (.b 0) (.imm 0) (.imm 1)) = 0 ∧
    (inCode 0).inDelaySlot = false ∧ (inCode 0).badTarget ((inCode 0).strm.readB 0) true true = false ∧ (on 0).strm.lbndS = 0 ∧
    (looping 0).strm.lbndS ≠ 0 ∧ (looping 0).badTarget ((looping 0).strm.readB 0) true true = false ∧
    (looping 0).strm.lcnt.toNat + 1 < (looping 0).strm.lbndN.toNat + (looping 0).strm.lbndS.toNat - 1 ∧
    (looping 3).strm.lbndN.toNat + (looping 3).strm.lbndS.toNat - 1 ≤ (looping 3).strm.lcnt.toNat + 1 ∧
    (∀ q, q < 2 → ∃ k, k < 2 ∧ permAt 1 k = q) ∧ tripProduct ((on 0).nestTrips 4 2) < 2 ^ 48 ∧
    (nested 0).strm.nest.slots ((nested 0).bay 0).pt = 2 ∧ (inCode 0).strm.nest.slots ((inCode 0).bay 0).pt = 0 ∧
    (nested 0).strm.nest.j.toNat + 1 < 2 ∧ 2 ≤ (nested 1).strm.nest.j.toNat + 1 ∧
    (nested 0).badTarget ((nested 0).strm.readB 0) true true = false ∧ (nested 0).inDelaySlot = false := by decide

theorem witness_EretReturns : allRun [(.eret hd o0, onStew), (.eret hd o0, on 0)] = true ∧ onStew.inDelaySlot = false ∧
    onStew.badTarget (onStew.steward 0).epc false false = false ∧ (on 0).inDelaySlot = false := by decide

theorem witness_MoveAndControlWords : allRun [(.mov hd (oDA (.a 1) (.a 2)), on 0), (.mov hd (oDA (.a 1) (.b 2)), on 0), (.mov hd (oDA (.a 1) (.p 2)), on 0),
      (.mov hd (oDA (.b 1) (.a 2)), on 0), (.mov hd (oDA (.b 1) (.b 2)), on 0), (.mov hd (oDA (.p 1) (.a 2)), on 0), (.mov hd (oDA (.p 1) (.p 2)), on 0),
      (.movi hd (oDA (.a 1) (.imm 0x80)) false false, on 0), (.movi hd ⟨.a 1, .lit, .none, .lit 5⟩ true false, on 0), (.movi hd ⟨.a 1, .lit, .none, .lit 5⟩ false true, on 0),
      (.srd hd (oDA (.a 1) (.cr 0x0C)), on 0), (.swr hd (oDA (.cr 0x03) (.a 1)), on 0), (.srd hd (oDA (.a 1) (.cr 0x20)), on 0), (.swr hd (oDA (.cr 0x20) (.a 1)), on 0),
      (.srd hd (oDA (.a 1) (.cr 0xFF)), on 0), (.eret hd o0, on 0), (.eret hd o0, onStew), (.srd hd (oDA (.a 1) (.cr 0x45)), onStew), (.swr hd (oDA (.cr 0x44) (.a 1)), onStew)] = true ∧
    assignedCr 0x0C false = true ∧ privOnly 0x0C = false ∧ assignedCr 0x03 false = true ∧ privOnly 0x03 = false ∧
    (((on 0).intVal (.a 1) (.sel .none 0)).extractLsb' 32 4).toNat ≤ 8 ∧ assignedCr 0x20 false = true ∧ privOnly 0x20 = true ∧
    assignedCr 0xFF false = false ∧ privOnly 0xFF = false ∧ onStew.badTarget (onStew.steward 0).epc false false = false := by decide

theorem witness_IntegerWords : allRun ([Instr.add hd o3, .sub hd o3, .and hd o3, .or hd o3, .xor hd o3, .andn hd o3, .shl hd o3, .shr hd o3, .sar hd o3, .min hd o3,
      .max hd o3, .minu hd o3, .maxu hd o3, .sel hd (oAll (.a 1) (.a 2) (.a 3) (.p 1))].map (fun i => (i, on 0))) = true := by decide

theorem witness_MulDivWords : allRun ([Instr.mul hd o3, .mulh hd o3 false, .mulh hd o3 true, .div hd o3 false, .div hd o3 true, .rem hd o3 false, .rem hd o3 true, .clz hd (oDA (.a 1) (.a 2)),
      .popc hd (oDA (.a 1) (.a 2)), .ext hd (oAll (.a 1) (.a 2) (.imm 63) (.imm 1)) true, .ext hd (oAll (.a 1) (.a 2) (.imm 0) (.imm 64)) false,
      .ins hd (oAll (.a 1) (.a 2) (.imm 63) (.imm 1))].map (fun i => (i, on 0))) = true ∧ (on 0).intVal (.a 5) (.sel .none 0) = 0 ∧
    (on 0).intVal (.imm 1) (.sel .none 0) ≠ 0 := by decide

theorem witness_PredicateWords : allRun ([Instr.cmp hd (oDAB (.p 1) (.a 2) (.a 3)) 2 11 2, .pset hd (oAll (.p 1) (.p 2) (.p 3) (.imm 15)) 4, .pbc hd (oDA (.p 1) (.p 2)) 8 true,
      .pbc hd (oDA (.p 0) (.p 2)) 0 false].map (fun i => (i, on 0))) = true := by decide

/-- A tile with token 63 outstanding, and one whose stream 0 holds mutex 7. -/
def busy : State := withTile (fun t => { t with toks := put t.toks 63 { out := true } }) (on 0)
def held : State := withTile (fun t => { t with mtxs := put t.mtxs 7 { held := true, owner := 0 } }) busy

theorem witness_SyncWords : allRun [(.semw hd (oDA (.imm 15) (.imm 0)), on 0), (.sems hd (oDA (.imm 15) (.imm 1)) false 0, on 0), (.sems hd (oDA (.imm 15) (.imm 1)) true 63, busy),
      (.mtxl hd (oD (.imm 7)), on 0), (.mtxu hd (oD (.imm 7)) false 0, on 0), (.mtxu hd (oD (.imm 7)) true 63, held)] = true ∧
    (on 0).horizonHit (guardTargets hd (on 0) ++ selTargets (.imm 0) (on 0) ++ [.sem 15]) = false ∧ (on 0).waitClash 15 true = false ∧ ((on 0).sem 15).ovf = false ∧
    (false && (on 0).tokBusy 0) = false ∧ busy.tokBusy 63 = true ∧ (busy.sem 15).ovf = false ∧ (on 0).horizonHit (guardTargets hd (on 0) ++ [.mtx 7]) = false ∧
    (on 0).waitClash 7 false = false ∧ (held.mtx 7).held = true ∧ (held.mtx 7).owner = 0 ∧ (held.mtx 7).armed = false ∧ held.tokBusy 63 = true ∧
    (nth (held.tile 0 0).toks 63 {}).arm = none := by decide

/-! ### Banks, gateway commands, ordering -/

/-- A full scratchpad whose slot 0 of group 0 holds `r` in row form. -/
def withSlot (x : Slot) (s : State) : State := withTile (fun t => t.setSlot 0 0 x) s
/-- Nothing is at fault in a slot access: the address is in the scratchpad and aligned, the ports are free, the slot is good. -/
def slotOk (s : State) (d : Nat) : Bool :=
  d + 512 ≤ s.spBytes 0 && d % 512 == 0 && !(s.tile 0 0).ports.contains { tc := s.tc, g := 0, write := false } &&
    !(s.tile 0 0).ports.contains { tc := s.tc + 1, g := 0, write := true } && !((s.tile 0 0).slot 0 (d / 512)).poison &&
    !((s.tile 0 0).slot 0 (d / 512)).bad
/-- An a-register at the last byte, the last slot and just past the scratchpad of group 0. -/
def atEnd (k : Nat) (v : Word) : State := withStrm k (fun u => { u with a := put u.a 4 v }) (onBank k)
/-- A bank address `a4 + 0` with destination or data register a3. -/
def bk : Ops := ⟨.a 3, .a 4, .imm 0, .sel .none 0⟩

theorem witness_ScalarMemoryWords : allRun [(.ldl hd bk 0 0 true, atEnd 0 524287), (.ldl hd bk 0 3 false, onBank 0),
      (.brds hd bk 0 0 true, atEnd 1 524287), (.stl hd bk 0 0, atEnd 0 524287), (.ldl hd bk 0 0 false, atEnd 0 524288),
      (.stl hd bk 0 0, atEnd 0 524288), (.stl hd bk 0 1, atEnd 0 1), (.ldl hd bk 0 3 true, onStew), (.stl hd bk 0 3, onStew)] = true ∧
    (atEnd 0 524287).spBytes 0 = 524288 ∧ ((atEnd 0 524287).bankEa bk).toNat = 524287 ∧
    ((atEnd 0 524287).tile 0 0).ports.contains { tc := 0, g := 0, write := false } = false ∧
    ((atEnd 0 524287).tile 0 0).ports.contains { tc := 1, g := 0, write := true } = false ∧
    (((atEnd 0 524287).tile 0 0).slot 0 1023).poison = false ∧ (((atEnd 0 524287).tile 0 0).slot 0 1023).bad = false ∧
    ((atEnd 0 524288).bankEa bk).toNat = 524288 ∧ ((atEnd 0 1).bankEa bk).toNat % 2 ≠ 0 ∧
    (onStew.bankEa bk).toNat = 0 ∧ okB (onStew.stewardLoad 0 0 8) = true ∧ okB (onStew.stewardStore 0 0 8 7) = true ∧
    placeOf 0 0x80000 = none ∧ 0x80000 % 2 ^ 3 = 0 := by decide

/-- A slot that a fill left fresh with sequence number 5. -/
def fresh : Slot := { fresh := true, seq := 5, tag := 12 }
def popping (n : Nat) (k : Nat) : State :=
  withTile (fun t => { t with oq := { t.oq with strict := true, entries := List.replicate n 0 } }) (onBank k)

theorem witness_SlotWords : allRun [(.brd hd ⟨.v 255, .a 0, .imm 0, .sel .none 0⟩ 0 false, onBank 1), (.brd hd ⟨.lane true 7, .a 4, .imm 0, .sel .none 0⟩ 0 false, atEnd 1 523776),
      (.brd hd ⟨.v 0, .a 0, .imm 0, .sel (.imm 5) 0⟩ 0 true, withSlot fresh (onBank 1)), (.brd hd ⟨.v 0, .a 0, .imm 0, .sel (.imm 6) 0⟩ 0 true, withSlot fresh (onBank 1)),
      (.bgth hd ⟨.v 0, .a 0, .imm 0, .sel .none 0⟩ 0 false, popping 1 1), (.bchk hd ⟨.imm 5, .a 0, .imm 0, .sel .none 0⟩ 0, withSlot fresh (onBank 1)),
      (.bwr hd ⟨.v 255, .a 0, .imm 0, .sel .none 0⟩ 0, onBank 1), (.bsct hd ⟨.v 1, .a 0, .imm 0, .sel (.v 2) 0⟩ 0 12, onBank 1),
      (.batm hd ⟨.v 1, .a 0, .imm 0, .sel .none 0⟩ 0 3, onBank 1), (.bfill hd ⟨.imm 64, .a 0, .imm 0, .sel (.imm 1) 0⟩ 0 1, onBank 1)] = true ∧
    slotOk (onBank 1) 0 = true ∧ slotOk (atEnd 1 523776) 523776 = true ∧ slotOk (withSlot fresh (onBank 1)) 0 = true ∧
    slotOk (popping 1 1) 0 = true ∧ ((withSlot fresh (onBank 1)).intVal (.imm 5) (.sel .none 0)).extractLsb' 0 16 = fresh.seq ∧
    ((withSlot fresh (onBank 1)).intVal (.imm 6) (.sel .none 0)).extractLsb' 0 16 ≠ fresh.seq ∧
    ((popping 1 1).tile 0 0).oq.entries = [0] ∧ (popping 1 1).horizonHit [.xoff] = false ∧
    (nth ((onBank 1).tile 0 0).rows 255 {}).md.poison = false ∧
    (∀ u ∈ (onBank 1).rmwPorts 0, ((onBank 1).tile 0 0).ports.contains u = false) ∧
    okB ((onBank 1).slotAs 0 0 12) = true ∧ okB ((onBank 1).bkOpnd (.v 1) 0 12) = true ∧ okB ((onBank 1).bkOpnd (.v 2) 0 6) = true ∧
    okB ((onBank 1).slotAs 0 0 3) = true ∧ okB ((onBank 1).bkOpnd (.v 1) 0 3) = true ∧ 512 * 64 ≤ (onBank 1).spBytes 0 := by decide

/-- The gateway with a2 holding a control word of a format (bits 16 to 20) and 64 images 32 bytes apart. -/
def gw (v : Word) (s : State) : State := withStrm 7 (fun u => { u with a := put u.a 2 v }) s
def rowImm (f : BitVec 8) : Third := .sel (.imm f) 0

theorem witness_GatewayWords : allRun [(.gld hd ⟨.v 255, .a 0, .imm 1, .sel (.a 2) 0⟩ 63 0, gw 0x190000 (onBank 7)),
      (.gld hd ⟨.a 0, .a 0, .imm 64, .sel (.a 2) 0⟩ 0 0, gw 0x010000 (onBank 7)), (.gst hd ⟨.v 0, .a 0, .imm 1, rowImm 25⟩ 0 0, onBank 7),
      (.gst hd ⟨.a 0, .a 0, .imm 0, rowImm 1⟩ 0 0, onBank 7), (.ggth hd ⟨.a 0, .a 0, .a 2, .sel (.imm 5) 0⟩ 0 0, gw 0x20000C0040 (popping 64 7)),
      (.gsct hd ⟨.a 0, .a 0, .a 2, .sel (.v 3) 0⟩ 0 0, gw 0x20000C0040 (onBank 7)), (.ggth hd ⟨.v 0, .a 0, .a 2, .sel (.imm 5) 0⟩ 0 0, gw 0x20000C0001 (popping 64 7)),
      (.gsct hd ⟨.v 0, .a 0, .a 2, .sel (.v 3) 0⟩ 0 0, gw 0x20000C0001 (onBank 7)), (.gcpy hd ⟨.a 0, .a 0, .imm 127, .sel .none 0⟩ 0, onBank 7),
      (.gcpy hd ⟨.a 0, .a 0, .a 2, .sel .none 0⟩ 0, gw 0x100000000 (onBank 7)), (.gpf hd ⟨.a 0, .imm 0, .imm 2, .sel .none 0⟩ 0, onBank 7),
      (.ginv hd ⟨.a 0, .imm 127, .none, .sel .none 0⟩ 0, onBank 7), (.gwb hd ⟨.a 0, .imm 127, .none, .sel .none 0⟩ 0, onBank 7),
      (.gatm hd ⟨.a 0, .a 0, .imm 64, .sel (.imm 0) 0⟩ 0 0 true, onBank 7), (.glev hd ⟨.a 0, .a 0, .none, .sel .none 0⟩ 0, onBank 7),
      (.gcpy hd ⟨.a 0, .a 0, .imm 1, .sel .none 0⟩ 63, withTile (fun t => { t with toks := put t.toks 63 { out := true } }) (on 7)),
      (.fence hd ⟨.none, .none, .none, .sel .none 0⟩ 63 8, busy)] = true := by decide

theorem witness_GatewayOperands : (onBank 7).tokBusy 63 = false ∧ ((gw 0x190000 (onBank 7)).regOf (.a 2)).extractLsb' 16 5 = 25 ∧ isTag 25 = true ∧ isTag 1 = true ∧
    512 * 64 ≤ (onBank 7).spBytes 0 ∧ (onBank 7).cntVal (.imm 64) (.sel .none 0) = 64 ∧ (onBank 7).cntVal (.imm 0) (.sel .none 0) = 0 ∧
    (nth (onBank 7).curTile.rows 0 {}).md.poison = false ∧ (((gw 0x20000C0040 (onBank 7)).regOf (.a 2)).extractLsb' 0 7).toNat = 64 ∧
    ((gw 0x20000C0001 (onBank 7)).regOf (.a 2)).extractLsb' 0 7 = 1#7 ∧ ((gw 0x20000C0040 (onBank 7)).regOf (.a 2)).extractLsb' 16 5 = 12 ∧ ((gw 0x20000C0040 (onBank 7)).regOf (.a 2)).toNat / 2 ^ 32 = 32 ∧
    ((popping 64 7).tile 0 0).oq.entries.length = 64 ∧ ((popping 64 7).tile 0 0).oq.entries.any (fun e => e.getLsbD 32) = false ∧
    (popping 64 7).horizonHit [.xoff] = false ∧ okB ((onBank 7).opnd (.v 3) (.sel (.v 3) 0) 7) = true ∧
    2 ^ 32 ≤ (gw 0x100000000 (onBank 7)).cntVal (.a 2) (.sel .none 0) ∧ 64 ≤ atomMax ⟨.a 0, .a 0, .imm 64, .sel (.imm 0) 0⟩ ∧
    (withTile (fun t => { t with toks := put t.toks 63 { out := true } }) (on 7)).tokBusy 63 = true ∧ busy.tokBusy 63 = true := by decide

/-- A bay whose region 63 binds sync word 64 to 128 bytes at 0, and CT holding those addresses. -/
def bound : State := withStrm 0 (fun u => { u with a := put (put u.a 1 64) 2 0xFFFFFFFFFFF80 })
  (withBay (fun y => { y with regions := put y.regions 63 { sync := 64, base := 0, size := 128 } }) (on 0))

theorem witness_OrderingAndEndpointWords : allRun [(.acq hd (oD (.a 1)) 0 8, bound), (.rel hd (oDA (.a 1) (.imm 0x80)) 63 0, bound),
      (.acq hd (oD (.a 2)) 0 0, bound), (.rel hd (oDA (.a 2) (.imm 0)) 0 0, bound), (.fence hd o0 63 8, bound), (.acq hd (oD (.a 1)) 0 8, onStew),
      (.rel hd (oDA (.a 1) (.imm 0)) 0 8, onStew), (.fence hd o0 0 8, onStew), (.bind hd ⟨.imm 63, .a 1, .a 2, .sel (.a 0) 0⟩, bound),
      (.bind hd ⟨.imm 64, .a 1, .a 2, .sel (.a 0) 0⟩, bound), (.st64 hd (oDA (.a 31) (.a 24)), on 0), (.st64 hd (oDA (.a 1) (.a 1)), onStew),
      (.waita hd ⟨.a 1, .imm 0, .none, .sel .none 0⟩ 6, bound)] = true := by decide

theorem witness_OrderingAndEndpointPlaces : bound.tokBusy 63 = false ∧ (bound.regOf (.a 1)).toNat % 64 = 0 ∧
    (bound.bay 0).regions.toList.any (fun e => e.size != 0 && e.sync == bound.regOf (.a 1)) = true ∧
    (bound.bay 0).regions.toList.any (fun e => e.size != 0 && e.sync == bound.regOf (.a 2)) = false ∧
    (bound.regOf (.a 2)).toNat + (bound.regOf (.a 0)).toNat ≤ 2 ^ 52 ∧
    bound.horizonHit (guardTargets hd bound ++ selTargets (.a 1) bound ++ selTargets (.imm 0) bound ++ selTargets .none bound) = false := by decide

/-! ### Numbers, vector words, offset queue, matrix engine, exchange -/

theorem witness_ExactArithmetic : (-64 : Int) ≤ -64 ∧ (-64 : Int) ≤ -32 + -32 ∧ 4 ≤ 4 ∧ 1 ≤ 1 ∧ (2 ^ 32 - 1 : Nat) < 2 ^ 32 ∧
    3 % 2 ^ 1 ≠ 0 ∧ 4 % 2 ^ 1 = 0 ∧ 2 * (6 % 2 ^ 2) = 2 ^ 2 := by decide

theorem witness_RoundOfDecode : 8 ≤ (8#5 : BitVec 5).toNat ∧ (13#5 : BitVec 5).toNat ≤ 13 ∧ 0xFF < 2 ^ elemWidth 8 ∧
    0x7FF0000000000000 < 2 ^ elemWidth 13 ∧ (decodeElem 13 false 127 0x7FF0000000000000).isNan = false ∧
    (decodeElem 8 false 127 0).isNan = false := by decide

/-- Row 255 of tile 0 with metadata `m`. -/
def tagged (m : RowMeta) : State := withRow 255 { md := m } (on 3)

theorem witness_OperandReading : ((on 3).strm.physV 255 = 255) ∧
    (nth (tagged { tag := 25 }).curTile.rows 255 {}).md = { tag := 25 } ∧ (nth (on 3).curTile.rows 255 {}).md.tag = 0 ∧
    (nth (tagged { tag := 24 }).curTile.rows 255 {}).md.tag ≠ 12 ∧ 24 ≤ (24#5 : BitVec 5).toNat ∧
    (nth (tagged { poison := true }).curTile.rows 255 {}).md.zs = false ∧
    (nth (tagged { poison := true, zs := true }).curTile.rows 255 {}).md.zs = true := by decide

/-- A vector word's modifiers for type `f`, with .x or without. -/
def vm (f : BitVec 5) (x : Bool) : VMod := ⟨false, 0, false, f, x⟩
/-- Whether the three row operands of a word can be read as `f`. -/
def reads (o : Ops) (f : BitVec 5) (s : State) : Bool := okB (s.opnd o.a o.c f) && okB (s.opnd o.b o.c f) && okB (s.opnd (cSel o.c) o.c f)
def v4 : Ops := ⟨.v 255, .v 0, .imm 2, .sel (.v 2) 0⟩
def v3 : Ops := ⟨.v 255, .v 0, .v 1, .sel .none 0⟩
def v2 : Ops := ⟨.lane false 7, .v 0, .none, .sel .none 0⟩

theorem witness_FloatWords : allRun ([Instr.vadd hd v3 (vm 12 false), .vsub hd v3 (vm 8 false), .vmul hd v3 (vm 13 false), .vfma hd v4 (vm 12 false),
      .vfms hd v4 (vm 12 false)].map (fun i => (i, on 3))) = true ∧
    allRun ([Instr.fexp2 hd v2 (vm 12 false), .flog2 hd v2 (vm 12 false), .frcp hd v2 (vm 12 false), .frsq hd v2 (vm 12 false), .fsqrt hd v2 (vm 12 false),
      .fsin hd v2 (vm 12 false), .fcos hd v2 (vm 12 false), .ftanh hd v2 (vm 12 false), .fsigm hd v2 (vm 12 false),
      .ferf hd v2 (vm 12 false)].map (fun i => (i, on 5))) = true ∧
    reads v4 12 (on 3) = true ∧ reads v3 8 (on 3) = true ∧ reads v3 13 (on 3) = true ∧ reads v2 12 (on 5) = true := by decide

theorem witness_LaneWords : allRun ([Instr.vneg hd v2 (vm 8 false), .vabs hd v2 (vm 13 false), .vmin hd v3 (vm 1 false), .vmax hd v3 (vm 13 false), .vminn hd v3 (vm 12 false),
      .vmaxn hd v3 (vm 4 false), .vmaxi hd v3 (vm 24 false), .vmini hd v3 (vm 24 false), .viadd hd v3 (vm 1 true), .visub hd v3 (vm 7 false),
      .vimul hd v3 (vm 4 false), .vand hd v3 (vm 24 false), .vor hd v3 (vm 1 false), .vxor hd v3 (vm 13 false), .vnot hd v2 (vm 24 false),
      .vshl hd v3 (vm 1 false), .vshr hd v3 (vm 7 false), .vsar hd v3 (vm 4 false), .vcmp hd ⟨.p 15, .v 0, .v 1, .sel .none 0⟩ (vm 12 true),
      .vsel hd ⟨.v 0, .v 0, .v 1, .sel (.p 15) 0⟩ (vm 24 false), .vdot hd ⟨.v 0, .v 0, .imm 1, .sel (.v 2) 2⟩ (vm 1 false)].map (fun i => (i, on 4))) = true ∧
    (extra (.sel (.v 2) 2)).extractLsb' 0 4 = 2 := by decide

theorem witness_LaneOperands : reads v3 1 (on 4) = true ∧ reads v3 4 (on 4) = true ∧ reads v3 7 (on 4) = true ∧
    reads v3 12 (on 4) = true ∧ reads v3 24 (on 4) = true ∧ reads v4 3 (on 4) = true := by decide

/-- Row 0 of tile 0 holds ones of format `f`. -/
def onesOf (f : BitVec 5) (k : Nat) : State := withRow 0 (mkRow f (List.replicate (lanes f) 1)) (on k)
/-- Whether row 0 as named holds a row of tag `f` that is not poisoned. -/
def holds0 (f : BitVec 5) (s : State) : Bool := !(nth s.curTile.rows (s.strm.physV 0) {}).md.poison && (nth s.curTile.rows (s.strm.physV 0) {}).md.tag == f

theorem witness_ConversionWords : allRun [(.vcvt hd v2 (vm 12 false), onesOf 6 3), (.vcvt hd v2 (vm 12 false), onesOf 24 3), (.vscl hd ⟨.v 1, .v 0, .imm 0x80, .sel .none 0⟩ (vm 13 false), onesOf 13 3),
      (.vcvt hd v2 (vm 12 false), onesOf 7 3)] = true ∧ holds0 24 (onesOf 24 3) = true ∧ holds0 7 (onesOf 7 3) = true ∧ lanes 7 = lanes 12 ∧
    okB ((onesOf 13 3).opnd (.v 0) (.sel .none 0) 13) = true ∧ okB (vcvtComp v2 (vm 12 false) (guardQ hd (onesOf 7 3).strm) (onesOf 7 3)) = true ∧
    okB (vcvtComp v2 (vm 12 false) (guardQ hd (onesOf 24 3).strm) (onesOf 24 3)) = false := by decide

theorem witness_MovementWords : allRun ([Instr.vpack hd v3 (vm 1 false), .vpack hd v3 (vm 24 true), .vunpk hd v2 (vm 25 false), .vunpk hd v2 (vm 12 true), .vtag hd v2 (vm 25 false),
      .vmov hd v2 (vm 25 false), .vlit hd ⟨.v 0, .lit, .none, .lit 0xFFFFFFFF⟩ (vm 7 true), .vlit hd ⟨.v 0, .imm 0x80, .none, .sel .none 0⟩ (vm 13 false),
      .vbcst hd ⟨.v 0, .a 1, .none, .sel .none 0⟩ (vm 13 false), .vbcst hd ⟨.v 0, .v 0, .imm 127, .sel .none 0⟩ (vm 25 false), .vperm hd v3 (vm 25 false),
      .vshf hd ⟨.v 0, .v 0, .v 1, .sel (.imm 127) 0⟩ (vm 25 false)].map (fun i => (i, on 3))) = true ∧
    okB ((on 3).raw (.v 0)) = true := by decide

theorem witness_MovementOperands : reads v3 1 (on 3) = true ∧ reads v3 6 (on 3) = true ∧ reads v3 7 (on 3) = true ∧ reads v3 12 (on 3) = true ∧
    reads v3 24 (on 3) = true ∧ reads v3 25 (on 3) = true ∧ (vm 13 false).ty ≠ 24 ∧ ((on 3).uintVal (.imm 127) (.sel .none 0)).toNat % lanes 25 = 63 := by decide

theorem witness_ReductionWords : allRun ([Instr.vred hd v2 (vm 12 false), .vscan hd v2 (vm 12 true), .vcmpt hd v2 (vm 12 false)].map (fun i => (i, on 3))) = true ∧
    okB ((on 3).opnd (.v 0) (.sel .none 0) 12) = true ∧ 10 ≤ 10 ∧ (List.replicate 8 0).length = 2 ^ 3 ∧
    (∀ i j : Fin 4, ((fun (_ a b : Nat) => (a + b, ([] : List Nat))) i 1 2).1 = ((fun (_ a b : Nat) => (a + b, ([] : List Nat))) j 1 2).1) := by decide

theorem witness_LanePredicateWords : allRun ([Instr.vany hd (oDA .none (.p 15)), .vall hd (oDA .none (.p 0)), .vpopc hd (oDA (.a 1) (.p 2)) 1, .qsetLen hd (oDA (.p 15) (.imm 127)) false 1,
      .qsetBc hd (oDA (.p 1) (.a 1)) true, .qsetFn hd (oAll (.p 1) (.p 2) (.p 3) (.imm 15)) false,
      .qsetCopy hd ⟨.p 1, .p 2, .none, .sel .none 5⟩ false].map (fun i => (i, on 3))) = true := by decide

theorem witness_RandomHashTriple : allRun ([Instr.vrng hd (oD (.v 0)) (vm 7 false), .vrng hd (oD (.v 0)) (vm 12 false), .vhsh hd ⟨.v 0, .v 0, .v 1, .sel (.imm 1) 0⟩ (vm 7 false), .vatc hd v3 (vm 25 false),
      .vatc hd v3 (vm 12 false), .vatf hd v2 (vm 12 false)].map (fun i => (i, on 3))) = true ∧ reads v3 7 (on 3) = true ∧ reads v3 25 (on 3) = true ∧
    reads v3 12 (on 3) = true := by decide

/-- A bitmap, run-length pairs, row bounds or indices in row 0, and a count in a1. -/
def sparse (f : BitVec 5) (n : Word) : State := withStrm 6 (fun u => { u with a := put u.a 1 n }) (onesOf f 6)
def sx (cnt : Sel) : Ops := ⟨.v 0, .a 0, cnt, .sel .none 0⟩
def jobs (n : Nat) (s : State) : State :=
  withTile (fun t => { t with oq := { t.oq with jobs := List.replicate n { t0 := 0, w0 := 0, strict := false, waits := [], src := .ready [], started := false, finished := false } } }) s

theorem witness_OffsetQueueWords : allRun [(.xbmp hd (sx (.a 1)) false 0, sparse 6 4096), (.xrle hd (sx (.a 1)) false 0, sparse 6 128), (.xcsr hd (sx (.a 1)) false 0, sparse 7 0x800000),
      (.xidx hd (sx (.a 1)) false 0 5, sparse 5 512), (.xbmp hd (sx (.a 1)) false 0, sparse 6 0), (.xbmp hd (sx (.imm 1)) false 0, jobs 256 (sparse 6 0)),
      (.xrate hd (oD (.imm 16)), on 6), (.xrate hd (oD (.a 1)), sparse 6 17), (.xoff hd o0 true, on 6), (.xoff hd o0 false, jobs 1 (on 6)), (.xend hd o0, on 6),
      (.xcnt hd (oD (.a 31)), on 6)] = true ∧
    ((sparse 6 4096).intVal (.a 1) (.sel .none 0)).toNat = 4096 ∧ (((sparse 7 0x800000).intVal (.a 1) (.sel .none 0)).extractLsb' 16 16).toNat = 128 ∧
    holds0 6 (sparse 6 4096) = true ∧ holds0 7 (sparse 7 0x800000) = true ∧ holds0 5 (sparse 5 512) = true ∧ lanes 5 = 512 ∧
    ((sparse 6 0).tile 0 0).oq.jobs.length < 256 ∧ 256 ≤ ((jobs 256 (sparse 6 0)).tile 0 0).oq.jobs.length := by decide

theorem witness_MatrixTile : allRun [(.mzero hd ⟨.acc 7, .lit, .none, .lit 0x7FFF⟩, on 2), (.mldb hd ⟨.v 0, .imm 7, .none, .sel .none 0⟩ (vm 12 true), onesOf 12 2), (.mrd hd ⟨.v 0, .acc 7, .imm 0, .sel .none 0⟩ (vm 12 false), on 2),
      (.manc hd (oDA (.acc 0) (.imm 0)), on 2), (.manc { hd with tt := 8, pa := 1 } (oDA (.acc 0) (.imm 0)), withStrm 2 (fun u => { u with q := put u.q 1 (~~~1) }) (onesOf 12 2))] = true ∧
    holds0 12 (onesOf 12 2) = true ∧ ((on 2).tile 0 0).mxReads.count 0 ≤ 1 ∧ ((on 2).tile 0 0).planeBusy 1 2 = false ∧
    okB ((on 2).mrdOut ⟨.v 0, .acc 7, .imm 0, .sel .none 0⟩ (vm 12 false) (guardQ hd (on 2).strm)) = true ∧
    (nth ((onesOf 12 2).tile 0 0).rows 0 {}).md.tag = 12 := by decide

theorem witness_ExactAccumulation : (2 ^ 108 - 1 : Nat) < 2 ^ 108 ∧ (∀ p ∈ ([(true, 2 ^ 100 - 1), (false, 0)] : List (Bool × Nat)), p.2 < 2 ^ 100) := by decide

/-- Two messages wait on channel 15. -/
def waiting : State := withTile (fun t => { t with chans := put t.chans 15 [{}, {}] }) (on 8)

theorem witness_ExchangeWords : allRun [(.xsnd hd (oDA (.v 0) .lit) , on 8)] = false ∧ allRun [(.xsnd hd ⟨.v 0, .lit, .none, .lit 0xFFFF⟩, onesOf 1 8), (.xrcv hd (oDA (.v 255) (.imm 15)), waiting),
      (.xrcv hd (oDA (.v 0) (.imm 15)), on 8), (.xrcv hd (oDA (.v 0) (.a 1)), withStrm 8 (fun u => { u with a := put u.a 1 16 }) (on 8))] = true ∧
    holds0 1 (onesOf 1 8) = true ∧ nth (waiting.tile 0 0).chans 15 [] = [{}, {}] ∧ (on 8).chan 15 = [] ∧
    15 < ((withStrm 8 (fun u => { u with a := put u.a 1 16 }) (on 8)).intVal (.a 1) (.sel .none 0)).toNat := by decide

def mm : Ops := ⟨.acc 7, .v 254, .none, .sel .none 0⟩
def mmasState : State := withTile (fun t => { t with oq := { t.oq with strict := true, entries := (List.range 32).map (BitVec.ofNat 33) } }) (on 2)
def mxAtWork : State := withTile (fun t => { t with mx := [(on 2).mxJob mm (vm 8 false) 0 (.mma 0) [{}] 2] }) (on 2)

theorem witness_MatrixArray : allRun [(.mma hd mm (vm 8 false), on 2), (.mmat hd mm (vm 8 true), on 2), (.mmas hd mm (vm 8 false), mmasState), (.mma hd mm (vm 8 false), mxAtWork),
      (.mwr hd ⟨.acc 7, .v 255, .imm 0, .sel .none 0⟩ (vm 12 false), on 2), (.macc hd ⟨.acc 7, .v 255, .imm 28, .sel .none 0⟩ (vm 12 false), on 2)] = true ∧
    passesOf 0 = 2 ∧ ((on 2).tile 0 0).mx.any (fun q => q.occupies 0) = false ∧ ((on 2).tile 0 0).loadPending [0] 1 1 = false ∧
    aFits (.v 254) 8 2 = true ∧
    (∀ u ∈ portReads ((on 2).aReads (.v 254) 8), (((on 2).tile 0 0).mxReads ++ portReads ((on 2).aReads (.v 254) 8)).count u ≤ 2) ∧
    okB (((on 2).mxJob mm (vm 8 false) (guardQ hd (on 2).strm) (.mma 0) [{}] 2).readNow ((on 2).tile 0 0) 0) = true ∧
    (mxAtWork.tile 0 0).mx.any (fun q => q.occupies mxAtWork.tc) = true ∧
    okB ((on 2).raw (.v 255)) = true ∧ okB ((on 2).opnd (.v 255) (.sel .none 0) 12) = true ∧
    (∀ u ∈ issueReads (on 2) (.v 255), (((on 2).tile 0 0).mxReads ++ issueReads (on 2) (.v 255)).count u ≤ 2) := by decide

theorem witness_MatrixOffsets : (mmasState.tile 0 0).popHazards 32 = [] ∧ mmasState.horizonHit [.xoff] = false ∧
    ascending ((mmasState.tile 0 0).popped 32) = true ∧
    okB ((mmasState.mmasJob mm (vm 8 false) (guardQ hd mmasState.strm)).readNow ((mmasState.tile 0 0).pop 32) 0) = true := by decide

/-! ### Steps -/

/-- Bay 0 running, with `f` applied. -/
def running (f : Bay → Bay) : State := withBay (fun y => f { y with phase := .running, service := true }) { State.reset with phase := .service }
/-- A rank parked on a collective hold since wc 0, at wc `n`. -/
def parkedAt (n : Nat) : State :=
  { running (fun y => { y with tclk := 5, safeAt := some 4, freeze := some { tc := 5, since := 0, kinds := [20, 25], resume := some 6 }, fillthr := 9 }) with wc := n }
def msg0 : XMsg := { tc := 5, src := 15, srcTile := 127, addr := 0, v := {} }
def due5 : Pend := { due := 5, issued := 4, strm := 8, addr := 0, evs := [], what := [.a 8 31 7] }

theorem witness_Timed : ((running (fun y => { y with tclk := 16 })).bay 0).timed = true ∧ ((parkedAt 6).bay 0).freeze ≠ none := by decide

theorem witness_TimetableSteps : (∃ z, z < 128 ∧ ∃ r ∈ (((withTile (fun t => { t with pend := [due5] }) (running (fun y => { y with tclk := 5 }))).bay 0).tile z).pend, r.due ≤ 5) ∧
    (∃ v ∈ ((withTile (fun t => { t with lanes := [{ aw := true, n := 7, station := 2, tc := 0, v := {} }] }) (running (fun y => { y with tclk := 16 }))).tile 0 0).lanes, v.tc + 15 < 16) ∧
    ((parkedAt 6).bay 0).phase = .running ∧ ((parkedAt 6).bay 0).freeze = some { tc := 5, since := 0, kinds := [20, 25], resume := some 6 } ∧ 6 ≤ (parkedAt 6).wc ∧
    ((withTile (fun t => { t with inbox := [msg0] }) (running (fun y => { y with tclk := 5 }))).tile 0 0).inbox = [msg0] ∧ msg0.tc ≤ 5 := by
  refine ⟨⟨0, by decide, due5, by decide, by decide⟩, ⟨_, List.mem_cons_self, by decide⟩, rfl, rfl, by decide, rfl, by decide⟩

/-- A rank switched out at step `n`. -/
def out (r : BitVec 20) (n : Word) : Parked :=
  { job := 7, rank := r, live := false, filler := false, nrank := 4, ptbase := 0, save := 0, steps := n, held := false, ep := {} }
/-- Ranks 1, 2 and 3 of bay 0 switched out: 2 and 3 have completed fewer steps. -/
def two : State :=
  { running (fun y => { y with assigned := [{ job := 7, rank := 3, filler := false }, { job := 7, rank := 1, filler := false }, { job := 7, rank := 2, filler := false }] }) with
    parked := [out 1 5, out 3 4, out 2 4] }

theorem witness_RequestSteps : ((parkedAt 10).bay 0).phase = .running ∧ ((parkedAt 10).bay 0).isParked = true ∧ ((parkedAt 10).bay 0).fillthr.toNat < (parkedAt 10).wc - 0 ∧
    ((parkedAt 10).bay 0).filler = false ∧ (running id).phase = .service ∧ ((running id).bay 1).free = true ∧
    ({ running id with settings := { enabled := 0xFF } } : State).settings.enabled.getLsbD 7 = true ∧
    ((running (fun y => { y with drained := true })).bay 0).drained = true ∧ ((running id).bay 0).isParked = false ∧
    (two.nextRank 0).map Candidate.rank = some 2 ∧
    ((running (fun y => { y with phase := .staged })).bay 0).phase = .staged ∧
    ((running (fun y => { y with phase := .staged })).bay 0).entryFault = false ∧
    ((running (fun y => { y with phase := .staged })).bay 0).resume = false := by decide

/-- A posted launch record for rank 0 of 1 with one stage, and a code object at location 0 for it with one function. -/
def launching (v : Byte) : State :=
  let s := running (fun y => { y with phase := .idle, post := 1, posted := put (put (put y.posted 2 v) 8 1) 0 1 })
  { s with mem := [(8, 1), (0x0C, 1), (0x14, 1)] }

theorem witness_LaunchGood : ((launching 1).bay 0).post = 1 ∧ ((launching 1).bay 0).free = true ∧ ((launching 1).bay 0).drained = false ∧
    ((launching 1).bay 0).service = true ∧ ((launching 1).bay 0).record.resume = false ∧
    (launching 1).mayPost 0 ((launching 1).bay 0).record = true ∧ ((launching 1).withIco 0 ((launching 1).bay 0).record.ico).refuses 0 ((launching 1).bay 0).record = false := by decide

theorem witness_LaunchBad : ((launching 3).withIco 0 ((launching 3).bay 0).record.ico).refuses 0 ((launching 3).bay 0).record = true := by
  decide

/-- A record that restores a safe-point context, at an LPDDR location where it is refused, and at an HBM one. -/
def restoring (tier : Byte) : State :=
  let s := launching 1
  { s.setBay 0 { s.bay 0 with posted := put (put (s.bay 0).posted 3 2) 0x3E tier, rankid := 0 } with
    mem := s.mem ++ [(0x100000, 1), (0x100002, 1)] }

theorem witness_LaunchRestores : ((restoring 0x10).bay 0).record.resume = true ∧
    (restoring 0x10).refusesRestore ((restoring 0x10).bay 0).record = true := by decide

/-- A job whose only rank, of bay 0, has arrived and has its image. -/
def job7 : Job := { id := 7, slot := 0, v := 1, milestone := 0, arrived := [3], imaged := [3], change := none }
def atBarrier : State :=
  { running (fun y => { y with job := 7, rankid := 3, arrived := 1, completed := 0, phase := .taken .switch }) with jobs := [job7] }
/-- The local copy of its snapshot holds the image. -/
def atMirror : State := { atBarrier with snapshots := [{ job := 7, rank := 3, written := true }] }
/-- A rank with a row that holds a soft error. -/
def soft : State := withTile (fun t => { t with soft := true }) atBarrier

theorem witness_RankLifeSteps : ((running id).bay 0).phase = .running ∧ (∀ x, x < 128 → (((running id).bay 0).tile x).pend = [] ∧ (((running id).bay 0).tile x).mx = []) ∧
    ((running id).bay 0).tokensDone = true ∧ (∀ x, x < 128 → ∀ j, j < 9 → ((((running id).bay 0).tile x).strm j).next = .halted) ∧
    ((running (fun y => { y with phase := .taken .drain })).bay 0).recordsGone = true ∧ (running id).roomFor 0 = true ∧
    (atBarrier.bay 0).completed < (atBarrier.bay 0).arrived ∧
    (atBarrier.bay 0).collsDone = true ∧ (atBarrier.bay 0).imaged = false ∧ (atBarrier.bay 0).lost = false ∧ (atBarrier.bay 0).seated = true ∧
    atBarrier.imageWritten 7 3 = false ∧ atMirror.imageWritten 7 3 = true ∧ (soft.bay 0).softError = true ∧ (atBarrier.bay 0).softError = false ∧
    atBarrier.barrierReady job7 0 = true ∧ atBarrier.allArrived job7 = true ∧ atMirror.linkUp atMirror.mirrorPort = true ∧ (∀ r ∈ job7.arrived, r ∈ job7.imaged) ∧ atBarrier.power.aligned = false ∧ (atBarrier.bay 0).occupied = true ∧
    (0 : Nat) ≤ atBarrier.ftime.toNat := by
  refine ⟨rfl, fun x h => ?_, by decide, fun x h j hj => ?_, by decide, by decide, by decide, by decide, by decide, by decide, by decide,
    by decide, by decide, by decide, by decide, by decide, by decide, by decide, by simp [job7], rfl, by decide, Nat.zero_le _⟩
  · simp only [running, withBay, State.reset, State.bay, State.setBay, Bay.tile, put, nth]; simp [h]
  · simp only [running, withBay, State.reset, State.bay, State.setBay, Bay.tile, Tile.strm, put, nth]; simp [h, hj]

/-- Two traps of one tc. -/
def twoTraps : List TrapRec := [{ cause := 0x081, tile := 0, strm := 0, addr := 0, ea := 0 }, { cause := 0x041, tile := 127, strm := 8, addr := 16, ea := 0 }]

theorem witness_TrapsStopTheBay : OnTile (on 8) 0 0 8 ∧ ((running (fun y => { y with traps := twoTraps })).bay 0).traps ≠ [] ∧
    (({ sems := put ({} : Tile).sems 15 { count := 0xFFFFFFFF } } : Tile).applyAll 0 [.semAdd 15 1]).2.1 ≠ [] ∧
    ((withTile (fun t => { t with pend := [{ due5 with issued := 4, strm := 0 }, { due5 with issued := 5, strm := 0, addr := 16 }] })
      (running (fun y => { y with tclk := 5 }))).tile 0 0).issueTrap 5 0 16 = some 0x040 ∧
    primary twoTraps = some { cause := 0x041, tile := 127, strm := 8, addr := 16, ea := 0 } ∧ primary [] = none ∧
    ((running (fun y => { y with traps := twoTraps, phase := .trapped })).bay 0).tokensDone = true ∧
    memWf ((running (fun y => { y with traps := twoTraps, phase := .trapped })).steward 0).ram = true := by
  refine ⟨⟨rfl, by decide, by decide, by decide⟩, by decide, by decide, by decide, by decide, rfl, by decide, by decide⟩

theorem witness_StewardExceptionEntry : onStew.core = .steward 0 ∧ (onStew.steward 0).estat.getLsbD 2 = false ∧
    (({ State.reset with core := .steward 7, stewards := put State.reset.stewards 7 { estat := 4 } } : State).steward 7).estat.getLsbD 2 = true := by decide

/-- Steward core 0 with deliveries enabled, two causes pending, and a word due. -/
def pendingStew : State :=
  let v : Steward := { running := true, estat := 1, strm := { next := .word 0 0 0 }, pending := [{ cause := 0x147, rank := false, bay := 0 }, { cause := 0x140, rank := true, bay := 0 }] }
  { State.reset with phase := .service, turn := .steward 0, stewards := put State.reset.stewards 0 v }

theorem witness_StewardSteps : pendingStew.takeable 0 = some ({ cause := 0x140, rank := true, bay := 0 }, 0) ∧ badCarve 0x0808080808080808 = false ∧
    badCarve 0x0909090909090909 = true ∧ ((running id).bay 0).occupied = true ∧ (State.reset.bay 0).occupied = false ∧ ((parkedAt 6).bay 0).isParked = true := by decide

/-- A tile with command `c` outstanding and page tables at 2 MiB that map the first 512 MiB at location 0. -/
def mapped (c : Cmd) : State :=
  let s := withTile (fun t => { t with cmds := [c], toks := put t.toks 63 { out := true, arm := some (.sem 15 0xFFFFFFFF) }, sems := put t.sems 15 { count := 2 } })
    (running (fun y => { y with ptbase := 0x200000, ep := { y.ep with next := 1, opened := 1, colls := [{ id := 0, record := [0, 0, 32, 0], landed := 0, addr := 0, tile := 0, present := [], opened := true, delivered := false }] } }))
  { s with mem := [(0x200000, 1), (0x200003, 0x10), (0x200004, 0x02), (0x210000, 0x0B)] }
def fill0 : CmdKind := .fill (.row 255 {}) [0] 0xF000 12
def cmd0 (w : CmdKind) (st : Bool) : Cmd := { k := 63, addr := 0, tclk := 0, waits := [], started := st, what := w }

theorem witness_GatewaySteps : ((mapped (cmd0 (.prefetch 0 1 2) false)).tile 0 0).cmds = [cmd0 (.prefetch 0 1 2) false] ∧
    (cmd0 (.writeBack 0 128) false).started = false ∧ (cmd0 (.invalidate 0 128) false).waits = [] ∧ (0 : Nat) ∉ (cmd0 fill0 true).done ∧
    ([0] : List Word)[0]? = some 0 ∧ ((mapped (cmd0 fill0 true)).imageRead 0 0 0 512).2.2 = none ∧
    ({ cmd0 (.fence 0) true with done := [0] } : Cmd).finished = true ∧ (cmd0 (.fence 0) true).landed {} = true ∧ (nth ((mapped (cmd0 fill0 true)).tile 0 0).toks 63 {}).out = true ∧
    (nth ((mapped (cmd0 fill0 true)).tile 0 0).toks 63 {}).arm = some (.sem 15 0xFFFFFFFF) ∧
    ((nth ((mapped (cmd0 fill0 true)).tile 0 0).sems 15 {}).count = 2) ∧
    (((mapped (cmd0 fill0 true)).bay 0).collOf ((mapped (cmd0 fill0 true)).coAt 0 31) 31 0).isSome = true ∧
    ((mapped (cmd0 fill0 true)).bay 0).collOf ((mapped (cmd0 fill0 true)).coAt 0 32) 32 0 = none := by decide

/-- What a command of tile 0 reads of its descriptor and table, with the bytes of the table in memory. -/
def runOf0 (w : CmdKind) (s : State) : Run := { s := s, b := 0, x := 0, c := cmd0 w true }
def store0 : CmdKind := .store (.row 0 {}) [0] 5
/-- A one-point injection from FP32 at 0 to FP32 at 512, with the weight 1.0: its descriptor at 0x1000, its table at 0x1040. -/
def grid0 : State :=
  { mapped (cmd0 (.grid 0x1000 0x1040 0) false) with
    mem := [(0x1009, 2), (0x1010, 1), (0x1014, 1), (0x1018, 1), (0x101C, 12), (0x101D, 12), (0x101E, 1),
            (0x1040, 1), (0x1052, 0x80), (0x1053, 0x3F), (0x200000, 1), (0x200003, 0x10), (0x200004, 0x02), (0x210000, 0x0B)] }
def gridRun0 : Run × Option Grid := (runOf0 (.grid 0x1000 0x1040 0) grid0).readGrid 0x1000 0x1040
/-- A written piece of 128 bytes. -/
def wrote0 (a : Nat) (s : State) : Bool := (s.vaWritePiece 0 0 a (zeros 128)).2.isNone && okB (s.walk 0 a)

theorem witness_GatewayEffects : (mapped (cmd0 store0 false)).walk 0 0 = .ok { loc := 0, size := 2 ^ 29, w := true, x := false, cl := 0, wp := 0, ev := 0, zs := false, c := false, co := 0 } ∧
    [0, 128, 256, 384].all (fun a => wrote0 a (mapped (cmd0 store0 false))) = true ∧ blockScaled 5 = false ∧
    ((mapped (cmd0 store0 false)).tile 0 0).slot 7 1023 = {} ∧
    ((mapped (cmd0 (.copy 0 256 1) false)).imageRead 0 0 256 1).2.2 = none ∧ (256 : Nat) % 128 + 128 ≤ 128 ∧
    (((mapped (cmd0 fill0 false)).clearCopies 0 0 0).homeLine 0).bad = false ∧ 1 ≤ lanes (atomFormat 5).1 ∧
    (gridRun0.2.map (fun g => (g.dstExt, g.acc, g.df, (g.stencil (0, 0, 0)).length))) = some ((1, 1, 1), false, 12, 1) ∧
    ((runOf0 fill0 (mapped (cmd0 fill0 false))).readGrid 0 64).2.isNone = true ∧
    (((mapped (cmd0 fill0 false)).bay 0).cluster 0).faults = [] ∧
    (((mapped (cmd0 fill0 false)).dropTileLine 0 0 0).homeLine 0).bad = false ∧ (3 : BitVec 4).toNat < 6 ∧ 6 ≤ (8 : BitVec 4).toNat := by decide

def sx0 (started : Bool) : SxJob := { t0 := 0, w0 := 0, strict := false, waits := [], src := .ready [7, 8], started := started, finished := false }
/-- The queue with one job and `n` entries, at wc 2. -/
def queue (started : Bool) (n : Nat) : State :=
  { withTile (fun t => { t with oq := { t.oq with jobs := [sx0 started], entries := List.replicate n 0 } }) (running id) with wc := 2 }
/-- A bay frozen before tc 5 for the WAITA of CT that watches the word at 0. -/
def watching : State := running (fun y => { y with tclk := 5, freeze := some { tc := 5, since := 0, kinds := [22], resume := none, waits := [{ tile := 0, strm := 0, cond := .watch 0 0 0 0 }] } })
def prefetching (fn : BitVec 24) : State :=
  (fun s => s.setBay 0 ((s.bay 0).setCluster 7 { (s.bay 0).cluster 7 with prefetch := [fn] })) (withBay (fun y => { y with phase := .running }) (inCode 0))

theorem witness_QueueSteps : watching.watching 0 0 = some (5, .watch 0 0 0 0) ∧ (∀ f, (watching.tile 0 0).watch ≠ some (5, .watch 0 0 0 0, f)) ∧ ((queue false 0).tile 0 0).oq.jobs = [sx0 false] ∧
    (sx0 false).w0 + 2 ≤ (queue false 0).wc ∧ ((queue false 0).tile 0 0).oq.freeTc ≤ 2 ∧ ((queue true 1023).tile 0 0).oq.entries.length < 1024 ∧
    ((prefetching 0).bay 0).cluster 7 = { ((prefetching 0).bay 0).cluster 7 with prefetch := [0] } ∧
    ((prefetching 0).bay 0).hasFn 7 0 = true ∧ ((prefetching 1).bay 0).hasFn 7 1 = false ∧ (prefetching 1).stageFn 0 1 = none := by
  decide

/-- Rank 0 of a job of three, with collective 5 open and its leaf formed; the descriptor 0 is a maximum over ranks 0 to 2. -/
def tree (vs : List ChildValue) : State :=
  let s := running (fun y => { y with nrank := 3, job := 7, ep := { y.ep with next := 6, opened := 1, values := vs, colls := [{ id := 5, record := [0, 0, 32, 0], landed := 0, addr := 0, tile := 0, present := (List.range 32).map (fun i => (i, (1, false))), opened := true, delivered := false }] } })
  { s with jobs := [{ job7 with v := 3, arrived := [], imaged := [] }],
           desc := [(0, 1), (1, 3), (0x0C, 3), (0x10, 1), (0x18, 32), (0x20, 1)] }
def leaf0 (lo hi : Nat) : ChildValue := { id := 5, lo := lo, hi := hi, desc := 0, bytes := List.replicate 32 1, bad := List.replicate 32 false, evs := [] }

/-- 14_contexts R359: a payload gives back the number of its value bytes. -/
theorem test_valueSize : (List.range 130).all (fun n => n = 0 || valueSize (n + 3 * ((n + 7) / 8)) == n) = true := by decide

theorem witness_CollectiveSteps : ((tree []).seat 7 0).map Seat.bay = some (some 0) ∧ (((tree []).bay 0).ep.coll 5).isSome = true ∧
    (tree []).linkUp 23 = true ∧ ({ tree [] with ports := 0x800000 } : State).linkUp 23 = false ∧ (tree []).linkUp 24 = false ∧
    ((tree [leaf0 1 2]).bay 0).ep.value 5 1 2 = some (leaf0 1 2) ∧ ((tree []).bay 0).ep.value 5 1 2 = none ∧
    isMark (leaf0 1 2) = false ∧ isMark { leaf0 1 2 with bytes := [], bad := [true] } = true ∧ (((tree []).bay 0).cluster 0).faults.length < 256 ∧
    ((tree []).descriptor ((tree []).bay 0) 0).n = 3 ∧ ((tree []).descriptor ((tree []).bay 0) 0).bad = false ∧
    isNode ((tree []).descriptor ((tree []).bay 0) 0).span 0 2 = true ∧
    ((tree []).descriptor ((tree []).bay 0) 0).position 0 = some 0 := by decide

/-- The same with the result placed at rank 1, which is on another device. -/
def toRoot : State := { tree [leaf0 0 1, leaf0 0 2, leaf0 0 4] with desc := [(0, 1), (1, 3), (2, 1), (0x0C, 3), (0x10, 1), (0x14, 1), (0x18, 32), (0x20, 1)] }

theorem witness_CollectiveNodes : ((tree [leaf0 0 1]).bay 0).ep.value 5 0 2 = none ∧ (((tree [leaf0 0 1, leaf0 1 2]).bay 0).ep.value 5 0 1).isSome = true ∧
    ((tree [leaf0 0 1, leaf0 1 2]).reachValue {} 7 5 1 2).isSome = true ∧ (tree [leaf0 2 3]).reachValue {} 7 5 3 4 = none ∧
    ((tree []).descriptor ((tree []).bay 0) 0).n ≤ (2 + 4) / 2 ∧ ((tree [leaf0 0 4]).reachValue {} 7 5 0 4).isSome = true ∧
    ((tree []).descriptor ((tree []).bay 0) 0).received 0 32 = some (0, 32) ∧ (toRoot.descriptor (toRoot.bay 0) 0).received 0 32 = none ∧
    toRoot.allReceived 7 (toRoot.descriptor (toRoot.bay 0) 0) 5 32 (some 0) = true ∧
    (((tree []).bay 0).ep.coll 5).any (fun c => ((tree []).descriptor ((tree []).bay 0) 0).complete 0 c) = true := by decide

def warm (t : BitVec 8) : Measure := { package := 4000001, hub := 0, bays := List.replicate 8 0, hottest := [25, t] }

/-- A device whose next telemetry tick is due, and one that runs the time root's protocol. -/
def ticking : State := { running id with ftime := 100000 }
def timeRoot0 (ptp : List Word) : State :=
  { State.reset with timeRoot := true, ptp := ptp, stewards := put State.reset.stewards 8 { running := true } }

theorem witness_LinkAndPowerSteps : (23#5 : BitVec 5).toNat < 24 ∧ (11#4 : BitVec 4).toNat < 12 ∧ ticking.tickDue = true ∧
    (running id).tickDue = false ∧ (∃ h ∈ (warm 106).hottest, 105 < h.toNat) ∧ (¬ ∃ h ∈ (warm 105).hottest, 105 < h.toNat) ∧
    (∃ h ∈ (warm 116).hottest, 115 < h.toNat) ∧ ticking.power.allows (warm 25) = true ∧
    ({ ticking.power with range := some (0, 0) } : Power).allows (warm 25) = false ∧
    1000 * ticking.power.cap.toNat < (warm 25).package.toNat ∧ ticking.power.telbase = 0 ∧ State.reset.timeRoot = false ∧ State.reset.linkUp State.reset.rootPort = true ∧
    ({ State.reset with ports := 1 } : State).linkUp State.reset.rootPort = false ∧
    (timeRoot0 [3, 2, 5]).timeRoot = true ∧ ((timeRoot0 []).steward 8).running = true := by
  refine ⟨by decide, by decide, by decide, by decide, ⟨106, by decide, by decide⟩, ?_, ⟨116, by decide, by decide⟩, by decide, by decide,
    by decide, rfl, rfl, by decide, by decide, rfl, by decide⟩
  intro ⟨h, hm, hl⟩
  simp only [warm, List.mem_cons, List.not_mem_nil, or_false] at hm
  rcases hm with rfl | rfl <;> simp at hl

def image0 (v : Bool) : FlashImage :=
  { slotB := true, magic := 0x47534946, format := 1, kind := 1, die := 0, version := 1, zeros := [0], length := 2, body := [1, 2], settings := {}, signed := v }
def request0 : List Byte := leBytes 4 0x51535441 ++ leBytes 2 1 ++ List.replicate 58 0
/-- The doorbell and the mailbox hold a request, and companion memory has room for the report. -/
def asked : State :=
  { timeRoot0 [] with doorbell := 0x51535441, mailbox := Vector.ofFn (fun i : Fin 64 => request0.getD i.val 0), compSize := 4096 }
/-- A configuration with an HDM range of 1 GiB, and an image whose context is of a step boundary, without pages. -/
def ready : State :=
  { asked with settings := { hdmSize := 1 }, flash := [image0 true], mem := [(0x4002, 2)], parked := [{ out 0 0 with job := 0, save := 0x4000 }] }

theorem witness_ReadyTables : ∀ no < 64, (ready.homeLine no).data = 0 := by decide

theorem witness_ReadyPages : ready.pagesOf 0x4000 = [] := by
  have hr : (ready.homeLe (0x4000 + 0x28) 8).1 = 0 := by decide
  rw [State.pagesOf, hr]
  refine List.flatMap_eq_nil_iff.mpr fun i hi => ?_
  have hi := List.mem_range.mp hi
  have h0 : (ready.homeLe (8 * i) 8).1 = 0 := homeLe_zero _ _ _ (by omega) (witness_ReadyTables _ (by omega))
  simp [h0]

theorem witness_ConvoyMove : ready.movable 0x4000 0x8000 [] true = true := by
  rw [State.movable, witness_ReadyPages]; decide

theorem witness_DeviceSteps : (image0 false).verifies = false ∧ (image0 true).verifies = true ∧ ready.flash.find? (fun f => f.kind == 1#8 && f.verifies) = some (image0 true) ∧
    asked.slotBusy (image0 true) = false ∧ asked.hasHdm { hdmSize := 1 } = true ∧ asked.hasHdm {} = false ∧ goodRequest request0 = true ∧ goodRequest [] = false ∧ (asked.steward 8).running = true ∧
    asked.mailbox.toList = request0 ∧ replyLoc request0 % 4096 = 0 ∧ asked.locOk (replyLoc request0) 2000 = true ∧
    stewardImage 8 = (2, 4) ∧ State.reset.canRestart 8 = true ∧ State.reset.canRestart 0 = false ∧
    State.reset.locOk 575999999999 1 = true ∧ ready.inHdm (2 ^ 52) 65536 = true ∧ State.reset.locOk (2 ^ 52) 128 = true ∧
    (0#64).getLsbD 63 = false ∧ (List.replicate 8 (0 : Byte)).length = 8 ∧
    (({ ready with snapshots := [{ job := 7, rank := 2, gens := ({ launch := true, pages := [(3, [1])] }, {}), since := [3] }], parked := [out 2 0] } : State).saveOf 7 2) = some 0 ∧
    ({ job := 7, rank := 2, gens := ({ launch := true, pages := [(3, [1])] }, {}), since := [3] } : Snapshot).current.pages = [(3, [1])] ∧
    ready.turning { job := 7, rank := 2, gens := ({ launch := true, pages := [(3, [1])] }, {}), since := [3] } = false := by decide

/-! ### Witnesses of single clauses -/

/-- Token 0 outstanding, and a gateway word suppressed while its token 63 is. -/
def full (s : State) : State := withTile (fun t => { t with toks := put t.toks 0 { out := true } }) s
def busy7 : State := withTile (fun t => { t with toks := put t.toks 63 { out := true } }) (on 7)

theorem witness_HeldToken : busy7.executes [7] false = true ∧ guardP { hd with tt := 0 } busy7.strm = false ∧
    busy7.tokBusy 63 = true ∧ busy7.horizonHit (guardTargets { hd with tt := 0 } busy7) = false := by decide

theorem witness_OtherLandings : (({} : Tile).slot 0 0).bad = false ∧ (nth (busy7.tile 0 0).toks 63 {}).out = true ∧
    (nth ({} : Tile).toks 63 {}).out = false ∧ ({} : Tile).pend = [] ∧ (7 : Nat) < 8 ∧
    ({ aw := true, n := 7, station := 2, tc := 0, v := {} } : LaneVal).isAt true 7 1 1 = true := by decide

theorem witness_ConvertedMerge : lanes 7 = lanes 12 ∧ (∀ e ∈ List.replicate 128 1, e < 2 ^ elemWidth 7) ∧
    (∃ i, i < lanes 12 ∧ (0 : QReg).getLsbD (posOf 12 i) = false) := ⟨by decide, by decide, 0, by decide, by decide⟩

def ovf : State := withTile (fun t => { t with sems := put t.sems 15 { ovf := true } }) (on 0)

theorem witness_Overflowed : allRun [(.semw hd (oDA (.imm 15) (.imm 0)), ovf), (.sems hd (oDA (.imm 15) (.imm 1)) false 0, ovf)] = true ∧
    (ovf.sem 15).ovf = true ∧ ovf.waitClash 15 true = false ∧
    ovf.horizonHit (guardTargets hd ovf ++ selTargets (.imm 0) ovf ++ [.sem 15]) = false := by decide

/-- Both ports of bank 0 in use, and a steward core with an odd address in a4. -/
def ported (k : Nat) : State :=
  withTile (fun t => { t with ports := [{ tc := 0, g := 0, write := false }, { tc := 1, g := 0, write := true }] }) (onBank k)
def oddStew : State := { onStew with stewards := put onStew.stewards 0 { strm := { a := put ({} : Strm).a 4 1 } } }

theorem witness_BadAddresses : allRun [(.brds hd bk 0 0 true, atEnd 1 524288), (.ldl hd bk 0 1 false, atEnd 0 1), (.brds hd bk 0 1 false, atEnd 1 1),
      (.ldl hd bk 0 0 false, ported 0), (.brds hd bk 0 0 false, ported 1), (.stl hd bk 0 0, ported 0), (.ldl hd bk 0 1 false, oddStew), (.stl hd bk 0 1, oddStew)] = true ∧
    ((ported 0).tile 0 0).ports.contains { tc := 0, g := 0, write := false } = true ∧
    ((ported 0).tile 0 0).ports.contains { tc := 1, g := 0, write := true } = true ∧
    (oddStew.bankEa bk).toNat % 2 ^ 1 ≠ 0 ∧ (oddStew.bankEa bk).toNat < 0x80000 := by decide

theorem witness_BusyTokens : allRun [(.gpf hd ⟨.a 0, .a 2, .imm 2, .sel .none 0⟩ 0, gw 0x100000000 (onBank 7)), (.ginv hd ⟨.a 0, .a 2, .none, .sel .none 0⟩ 0, gw 0x100000000 (onBank 7)),
      (.gwb hd ⟨.a 0, .a 2, .none, .sel .none 0⟩ 0, gw 0x100000000 (onBank 7)), (.gld hd ⟨.v 255, .a 0, .imm 1, .sel (.a 2) 0⟩ 0 0, full (gw 0x190000 (onBank 7))),
      (.gst hd ⟨.a 0, .a 0, .imm 0, rowImm 1⟩ 0 0, full (onBank 7)), (.ggth hd ⟨.a 0, .a 0, .a 2, .sel (.imm 5) 0⟩ 0 0, full (gw 0x20000C0040 (popping 64 7))),
      (.gsct hd ⟨.a 0, .a 0, .a 2, .sel (.v 3) 0⟩ 0 0, full (gw 0x20000C0040 (onBank 7))), (.gcpy hd ⟨.a 0, .a 0, .imm 127, .sel .none 0⟩ 0, full (onBank 7)),
      (.gpf hd ⟨.a 0, .imm 0, .imm 2, .sel .none 0⟩ 0, full (onBank 7)), (.ginv hd ⟨.a 0, .imm 127, .none, .sel .none 0⟩ 0, full (onBank 7)),
      (.gwb hd ⟨.a 0, .imm 127, .none, .sel .none 0⟩ 0, full (onBank 7)), (.gatm hd ⟨.a 0, .a 0, .imm 64, .sel (.imm 0) 0⟩ 0 0 true, full (onBank 7)),
      (.glev hd ⟨.a 0, .a 0, .none, .sel .none 0⟩ 0, full (onBank 7)), (.acq hd (oD (.a 1)) 0 8, full bound), (.rel hd (oDA (.a 1) (.imm 0)) 0 8, full bound),
      (.fence hd o0 0 8, full bound)] = true ∧ (full (onBank 7)).tokBusy 0 = true ∧ (full bound).tokBusy 0 = true ∧
    2 ^ 32 ≤ (gw 0x100000000 (onBank 7)).cntVal (.a 2) (.sel .none 0) ∧ ((full (popping 64 7)).tile 0 0).oq.strict = true := by decide

def bind5 (e : Nat) (base : Word) : Pend := { due5 with strm := 0, what := [.bind e 64 base 128] }
def st5 : Pend := { due5 with strm := 0, what := [.st64 31 [0x60000, 0, 32, 0, 0, 0, 0, 0]] }
/-- Tiles 0 and 1 of a bay with these writes in flight, in tc 5. -/
def landing (r q : List Pend) : State :=
  withBay (fun y => { y with tclk := 5, tiles := put (put y.tiles 0 { y.tile 0 with pend := r }) 1 { y.tile 1 with pend := q } }) (tree [])

theorem witness_BindsLand : ((landing [bind5 63 0] []).bay 0).timed = true ∧
    ((landing [bind5 63 0] []).bay 0).bindsDue 5 = [(0, bind5 63 0, 63, { sync := 64, base := 0, size := 128 })] ∧
    (((landing [bind5 63 0] [bind5 63 128]).bay 0).bindsDue 5).map (fun q => (q.1, q.2.2)) = [(0, 63, { sync := 64, base := 0, size := 128 }), (1, 63, { sync := 64, base := 128, size := 128 })] ∧
    (((landing [st5] []).bay 0).st64sDue 5).map (fun q => (q.1, q.2.2)) = [(0, 31, [0x60000, 0, 32, 0, 0, 0, 0, 0])] := by decide

/-- The code of a submission with id, step and size as given, where the bay has `n` collectives open. -/
def codeOf (n : Nat) (id step size : Word) : Nat :=
  (tree []).st64Code { (tree []).bay 0 with ep := { ((tree []).bay 0).ep with opened := n } } [65536 * id, step, size, 0, 0, 0, 0, 0]

theorem witness_ReturnCodes : codeOf 1 6 0 32 = 0 ∧ codeOf 64 6 0 32 = 1 ∧ codeOf 1 5 0 32 = 3 ∧ codeOf 1 6 0 33 = 3 ∧ codeOf 1 6 1 32 = 4 ∧
    codeOf 1 0x10006 0 32 = 2 := by decide

theorem witness_AbsentParts : runsB (.vcvt hd ⟨.lane false 7, .v 0, .none, .sel .none 2⟩ (vm 12 false)) (onesOf 24 3) = true ∧
    (extra (.sel .none 2)).extractLsb' 0 5 = 2 ∧ lanes 12 / lanes 24 = 2 := by decide

theorem witness_TreeHalves : ([none, some 3, none, some 5] : List (Option Nat)).length = 2 ^ 2 ∧ ([some 1, none, some 2] : List (Option Nat)).length ≤ 2 ^ 2 ∧
    (canonicalTree (fun _ a b => (a + b, [])) ([none, some 3, none, some 5] ++ [some 1, none, some 2])).1 = some 11 := by decide

def sxs : Ops := ⟨.a 0, .a 0, .imm 1, .sel .none 0⟩

theorem witness_SlotSources : allRun [(.xbmp hd (sx (.a 1)) false 0, sparse 6 4097), (.xrle hd (sx (.a 1)) false 0, sparse 6 129), (.xcsr hd (sx (.a 1)) false 0, sparse 7 0x810000),
      (.xidx hd (sx (.a 1)) false 0 5, sparse 5 513), (.xrle hd (sx (.imm 1)) false 0, jobs 256 (sparse 6 0)), (.xcsr hd (sx (.a 1)) false 0, jobs 256 (sparse 7 0x10000)),
      (.xidx hd (sx (.imm 1)) false 0 5, jobs 256 (sparse 5 0)), (.xbmp hd sxs true 0, onBank 6), (.xrle hd sxs true 0, onBank 6), (.xcsr hd ⟨.a 0, .a 0, .a 0, .sel .none 0⟩ true 0, onBank 6),
      (.xidx hd sxs true 0 5, onBank 6), (.xbmp hd sxs true 0, popping 0 6)] = true ∧ 512 ≤ (onBank 6).spBytes 0 ∧ (on 6).spBytes 0 = 0 ∧
    ((popping 0 6).tile 0 0).oq.strict = true ∧ ((onBank 6).tile 0 0).oq.strict = false := by decide

/-- Tile 7 of the accumulators all zero slots, and a job over it whose A operand is two rows of FP8. -/
def zeros7 (k : Nat) : State :=
  withTile (fun t => { t with rows := Vector.ofFn (fun i : Fin 256 => if 224 ≤ i.val then mkRow 23 (List.replicate 32 0) else t.rows[i.val]) }) (on k)
def job7x (kind : MxKind) (ps : List Plane) (got : List Row) : MxJob :=
  { (on 2).mxJob mm (vm 8 false) 0 kind ps 2 with got := got }

theorem witness_TileResults : allRun [(.mrd hd ⟨.v 0, .acc 7, .imm 0, .sel .none 0⟩ (vm 12 false), zeros7 2), (.mrd hd ⟨.v 0, .acc 7, .imm 0, .sel .none 0⟩ (vm 23 false), zeros7 2),
      (.mmat hd mm (vm 8 false), mxAtWork)] = true ∧
    (∀ m, m < 32 → (nth ((zeros7 2).tile 0 0).rows (32 * 7 + m) {}).md.poison = false ∧ (nth ((zeros7 2).tile 0 0).rows (32 * 7 + m) {}).md.tag = 23) ∧
    (job7x (.mwr 0) [] [mkRow 8 []]).got = [mkRow 8 []] ∧ (mkRow 8 []).md.tag = (job7x (.mwr 0) [] []).f ∧ lanes 8 / 32 = 16 ∧
    ((List.range 32).map (fun k => 2 * k)).all (fun k => k < 64) = true := by decide

theorem witness_TileOperand : (job7x (.mma 0) [{}] (List.replicate 2 (mkRow 8 (List.replicate 512 0)))).aValues.1.length = 1024 := by decide +kernel

/-- A bay about to freeze in tc 5, since a callee of CT is not resident, and one that has begun to. -/
def freezing : State :=
  withBay (fun y => { y with tclk := 5, phase := .running, service := true, entering := [{ due := 5, tile := 0, strm := 0, fn := 1, addr := 0 }] }) (inCode 0)

/-- Stream 3 alone of tile 0 not halted, with a joint word in tc 0. -/
def joined (w : Joint) : State := withBay (fun y => { y with joints := [(0, 3, w)] }) (inCode 3)

def bodyless : State :=
  withBay (fun y => y.setCluster 0 { y.cluster 0 with code := [{ fn := 0, bodies := [], size := 64, entered := true, succ := [], live := [] }] }) (joined (.call 0 0))
/-- Every CT of a bay at a SAFE. -/
def allSafe : Bay := { joints := (List.range 128).map (fun x => (x, 0, .safe)) }

theorem witness_Joined : ((joined (.call 0 0)).bay 0).matched 0 (.call 0 0) = true ∧ (joined (.call 0 0)).jointTraps 0 (0, 3, .call 0 0) = [] ∧
    ((joined (.rdv true true)).bay 0).matched 0 (.rdv true false) = false ∧ ((joined .safe).bay 0).matched 0 .safe = false ∧
    (bodyless.bodyLength 0 0 0 3) = none ∧ ((joined (.call 0 0)).bodyLength 0 0 0 3).isSome = true ∧
    ((joined (.ret 0 0)).bay 0).matched 0 (.ret 0 2) = true ∧ ((joined (.call 0 0)).bay 0).traps = [] := by decide

theorem witness_SafePoint : (List.range 128).all (fun z => allSafe.jointOf z 0 == some .safe) = true ∧ allSafe.emptyAt 0 0 = true ∧
    ({ allSafe with tiles := put allSafe.tiles 0 { (allSafe.tile 0) with pend := [due5] } } : Bay).emptyAt 0 0 = false := by decide +kernel

theorem witness_CloseWithoutTraps : let s := joined (.call 0 0)
    (s.setBay 0 ((s.bay 0).mapTiles (fun _ t => t.strictPush (s.bay 0).tclk))).closeTraps 0 = [] := by decide +kernel

/-- A tile whose due word is `c`, and the same where its place in the code store holds a soft error. -/
def due (c : Code) : State := State.reset.withFetchWord 128 c.toNat
def softCode (s : State) : State :=
  withBay (fun y => y.setCluster 0 { y.cluster 0 with code := (y.cluster 0).code.map (fun f => { f with bad := [(0, 0)] }) }) s
/-- An unassigned minor opcode, a reserved class, and the same under a false guard. -/
def bad0 : Code := w 0x04 0x0E 0 0x003 0x004 0x505 0xF0000000
def bad1 : Code := w 0x28 0x00 0 0x803 0x004 0x505 0xF0000000

theorem witness_BadWords : (due bad0).agenda = [] ∧ (due bad0).turn = .issue 0 [(0, 0)] ∧
    (due bad0).dueWord (.tile 0 0 0) (((due bad0).tile 0 0).strm 0) ((due bad0).bay 0).tclk = some (0, 0, bad0) ∧
    (due bad0).badFetch (.tile 0 0 0) 0 0 = false ∧ decode bad0 = .error (.unassignedMinor hd 4) ∧ decode bad1 = .error (.badField hd 0x28) ∧
    (softCode (due bad0)).turn = .issue 0 [(0, 0)] ∧ (softCode (due bad0)).badFetch (.tile 0 0 0) 0 0 = true ∧
    (softCode (due bad0)).dueWord (.tile 0 0 0) (((softCode (due bad0)).tile 0 0).strm 0) ((softCode (due bad0)).bay 0).tclk = some (0, 0, bad0) ∧
    (on 0).executes (groupStreams 4).1 (groupStreams 4).2 = true ∧ (on 1).executes (groupStreams 0x31).1 (groupStreams 0x31).2 = false ∧
    guardP { hd with tt := 0 } (on 7).strm = false ∧ (on 7).tokBusy 0 = false ∧ (w 1 2 0 0 0 0 0).extractLsb' 112 16 ≠ 0x0001#16 := by decide

theorem witness_StewardTraps : allRun ([Instr.holdTok hd (oD (.a 1)), .holdSem hd (oDA (.imm 15) (.imm 0)), .holdBc hd (oDA (.imm 15) (.a 1)), .holdStep hd o0, .safe hd o0,
      .sysc hd (oDA (.imm 127) (.a 1)), .lngo hd (oDA (.p 1) (.b 0)), .lnnext hd (oDA (.p 1) (.b 0)), .semw hd (oDA (.imm 15) (.imm 0)), .mtxl hd (oD (.imm 7)),
      .bind hd ⟨.imm 63, .a 1, .a 2, .sel (.a 0) 0⟩, .rdv hd o0 true true, .pbc hd (oDA (.p 1) (.p 2)) 8 true, .sems hd (oDA (.imm 15) (.imm 1)) true 63,
      .mtxu hd (oD (.imm 7)) false 0, .waita hd ⟨.a 1, .imm 0, .none, .sel .none 0⟩ 6, .holdCol hd (oD (.a 1)), .lndef hd (oDAB (.a 4) (.imm 2) (.imm 1))].map (fun i => (i, onStew))) = true ∧
    allRun [(.lngo hd (oDA (.p 1) (.b 0)), on 1), (.lnnext hd (oDA (.p 1) (.b 0)), on 8), (.safe hd o0, on 7), (.lndef hd (oDAB (.a 4) (.imm 2) (.imm 1)), on 2)] = true ∧
    onStew.onSteward = true ∧ (on 8).onSteward = false ∧ (on 8).strmNo ≠ 0 ∧ (onStew.strm.readA 1).toNat ≤ 1023 ∧
    aReg (.a 4) ≠ 0 ∧ (aReg (.a 4)).toNat + (immVal (.imm 2)).toNat - 1 ≤ 31 := by decide

theorem witness_Cleared : ∃ k r, k < 9 ∧ (({} : Tile).strm k).physV r = 255 ∧ (0x0#256).getLsbD r.toNat = false :=
  ⟨8, 255, by decide, by decide, by decide⟩

theorem witness_MergeCauses : (posOf 23 31 < 512) ∧ ({ poison := true, zs := true } : RowMeta).zs = true ∧
    (mkRow 24 (List.replicate 64 0)).md.tag = 24 ∧ blockScaled 17 = true ∧ lanes 23 = 32 ∧ lanes 17 % 32 = 0 ∧
    (List.replicate (lanes 17) 1).all (fun e => decide (e < 2 ^ elemWidth 17)) = true := by decide

theorem witness_ControlForms : allRun [(.movi hd (oDA (.a 1) (.imm 0x80)) true false, on 0), (.movi hd (oDA (.a 31) (.imm 0x7F)) false true, on 0),
      (.swr hd (oDA (.cr 0x3F) (.a 1)), on 0), (.swr hd (oDA (.cr 0x03) (.a 1)), withA 0 1 0xF00000000 (on 0)), (.swr hd (oDA (.cr 0x45) (.a 1)), onStew),
      (.srd hd (oDA (.a 1) (.cr 0x3E)), onStew), (.swr hd (oDA (.cr 0x22) (.a 1)), onStew), (.swr hd (oDA (.cr 0x21) (.a 1)), onStew), (.srd hd (oDA (.a 1) (.cr 0x25)), onStew)] = true ∧
    assignedCr 0x3F false = false ∧ 8 < (((withA 0 1 0xF00000000 (on 0)).intVal (.a 1) (.sel .none 0)).extractLsb' 32 4).toNat ∧
    assignedCr 0x22 true = true ∧ assignedCr 0x25 true = true ∧ assignedCr 0x3E true = false ∧ badCarve 0 = false ∧ rwCr 0x1B = true ∧ rwCr 0x1A = false := by decide

/-- CT with a register written within its horizon: a1 in the tc before, and semaphore 15 and mutex 7. -/
def hit (k : Nat) : State :=
  withTile (fun t => { t with hist := [(0, .a k 1), (0, .sem 15), (0, .mtx 7), (0, .p k 1)] }) (withBay (fun y => { y with tclk := 1, ep := (accepted.bay 0).ep }) (on k))

theorem witness_HorizonHits : allRun [(.holdTok hd (oD (.a 1)), hit 0), (.holdSem hd (oDA (.imm 15) (.imm 0)), hit 0), (.holdBc hd (oDA (.imm 15) (.a 1)), hit 0),
      (.holdStep { hd with tt := 0x7F, pa := 1 } o0, hit 0), (.holdCol hd (oD (.a 1)), hit 0), (.semw hd (oDA (.imm 15) (.imm 0)), hit 0),
      (.mtxl hd (oD (.imm 7)), hit 0), (.waita hd ⟨.a 1, .imm 0, .none, .sel .none 0⟩ 6, hit 0), (.holdCol hd (oD (.a 1)), withA 0 1 1024 (on 0))] = true ∧
    (hit 0).horizonHit (guardTargets hd (hit 0) ++ selTargets (.a 1) (hit 0)) = true ∧ (hit 0).horizonHit (guardTargets hd (hit 0) ++ [.sem 15]) = true ∧
    (hit 0).horizonHit (guardTargets hd (hit 0) ++ [.mtx 7]) = true ∧ (hit 0).horizonHit (guardTargets { hd with tt := 0x7F, pa := 1 } (hit 0)) = true ∧
    1023 < ((withA 0 1 1024 (on 0)).strm.readA 1).toNat := by decide

/-- Streams 0 and 1 of tile 0 due at SEMWs of semaphore 3, of which 1 has issued. -/
def semws : State :=
  withBay (fun y => (y.setCluster 0 { y.cluster 0 with code := [{ fn := 0, bodies := (List.range 9).map (fun _ => some [w 0x07 0x00 0x000 0x503 0x501 0xf00 0xf0000000]), size := 16, entered := true, succ := [], live := [] }] }))
    (withBay (fun y => { y with fnCount := 1, issued := [(0, 1)] }) (on 0))

theorem witness_WaitClash : (0, 1) ∈ (semws.bay 0).issued ∧
    ((semws.fetchAt (.tile 0 0 1) 0 0).map decode) = some (.ok (.semw hd ⟨.imm 3, .imm 1, .none, .sel .none 0⟩)) ∧ semws.waitClash 3 true = true ∧
    runsB (.semw hd ⟨.imm 3, .imm 1, .none, .sel .none 0⟩) semws = true := by decide

/-- A bay with HOLD.bc 3 and BGTHs of one tile due in tc 6, seen at tc 0 with the counter 0 and two entries. -/
def holding : State :=
  let body (k : Nat) : List Code := [if k = 0 then w 0x01 0x06 0x004 0x503 0x001 0xf00 0xf0000000 else w 0x21 0x03 0x000 0x103 0x000 0xf00 0xf0000000]
  let s := running (fun y => { y with
    tclk := 6, fnCount := 1, nstage := 1
    clusters := Vector.ofFn (fun c : Fin 8 => { y.clusters[c.val] with code := [{ fn := 0, bodies := (List.range 9).map (fun k => some (body k)), size := 16, entered := true, succ := [], live := [] }] }) })
  withStrm 1 (fun u => { u with cur := (0, 0), next := .word 0 0 6 }) (withStrm 0 (fun u => { u with cur := (0, 0), next := .word 0 0 6 }) s)

theorem witness_Samples : holding.dueWord (.tile 0 0 0) ((holding.tile 0 0).strm 0) 6 = some (0, 0, w 0x01 0x06 0x004 0x503 0x001 0xf00 0xf0000000) ∧
    holding.dueWord (.tile 0 0 1) ((holding.tile 0 0).strm 1) 6 = some (0, 0, w 0x21 0x03 0x000 0x103 0x000 0xf00 0xf0000000) ∧
    holding.condAt 0 0 0 6 (0, 0) = some (.bc 3 0) ∧ holding.condAt 0 0 1 6 (0, 0) = some (.pop 1) ∧
    holding.condsOf 0 0 6 = [(0, .bc 3 0), (1, .pop 1)] := by decide +kernel

theorem witness_CalleeFits : (inCode 3).calleeSize 0 0 = some 0 ∧ (inCode 3).fitsAll 0 0 0 = true ∧ (inCode 3).fetchAt (.tile 0 0 0) 0 4 = none ∧
    (((inCode 0).following (.tile 0 0 0) 0 4 5 1 1).map Prod.fst) = [1, 2, 3] ∧ (inCode 0).fetchAt (.steward 0) 0 0x80000 = none ∧
    (((inCode 0).bay 0).liveAt 0 0 1).rows = 0 ∧ (((inCode 0).bay 0).fnOf 0 0).isSome = true ∧ ((inCode 0).bay 0).fnOf 0 1 = none := by decide

/-- A channel of tile 0 with five values, the last of which arrives in this tc. -/
def crowded : State := withTile (fun t => { t with chans := put t.chans 15 (List.replicate 5 {}), arrived := [{ msg0 with srcTile := 15 }] }) (on 8)

theorem witness_CrowdedChannel : (crowded.closeTraps 0).map (fun r => (r.cause, r.tile, r.strm)) = [(0x055, 15, 8)] := by decide +kernel

/-- Steward core 0 with the address `v` in a4. -/
def stewAt (v : Word) : State := { onStew with stewards := put onStew.stewards 0 { strm := { a := put ({} : Strm).a 4 v } } }

theorem witness_StewardPlaces : allRun [(.ldl hd bk 0 3 true, stewAt 0x80000), (.stl hd bk 0 3, stewAt 0x80000), (.ldl hd bk 0 1 true, stewAt 0x80001), (.stl hd bk 0 1, stewAt 1)] = true ∧
    okB (onStew.stewardLoad 0 0x80000 8) = false ∧ okB (onStew.stewardStore 0 0x80000 8 7) = false ∧ placeOf 0 0x80001 = none ∧
    okB (onStew.stewardStore 0 1 2 7) = true ∧ 1 % 2 ^ 1 ≠ 0 := by decide

/-- BK with an elastic queue of `n` entries, and rows on lanes. -/
def elastic (n k : Nat) : State := withTile (fun t => { t with oq := { t.oq with entries := List.replicate n 0 } }) (onBank k)
def laned (k : Nat) : State := withTile (fun t => { t with lanes := [{ aw := true, n := 7, station := 1, tc := 0, v := mkRow 12 (List.replicate 128 1) }] }) (withBay (fun y => { y with tclk := 1 }) (onBank k))
def accSlot : Slot := { tag := 23, anchor := 5 }

theorem witness_SlotForms : allRun [(.bgth hd ⟨.v 0, .a 0, .imm 0, .sel (.imm 5) 0⟩ 0 true, withSlot fresh (elastic 1 1)), (.bgth hd ⟨.v 0, .a 0, .imm 0, .sel (.imm 6) 0⟩ 0 true, withSlot fresh (popping 1 1)),
      (.bgth hd ⟨.v 0, .a 0, .imm 0, .sel .none 0⟩ 0 false, elastic 0 1), (.bchk hd ⟨.imm 6, .a 0, .imm 0, .sel .none 0⟩ 0, withSlot fresh (onBank 1)),
      (.bwr hd ⟨.lane true 7, .a 0, .imm 0, .sel .none 0⟩ 0, laned 1), (.batm hd ⟨.v 1, .a 0, .imm 0, .sel .none 0⟩ 0 23, withSlot accSlot (onBank 1)),
      (.batm hd ⟨.v 1, .a 0, .imm 0, .sel .none 0⟩ 0 23, onBank 1)] = true ∧
    popsFreely (elastic 1 1) 0 0 (guardTargets hd (elastic 1 1)) ∧ popsFreely (popping 1 1) 0 0 (guardTargets hd (popping 1 1)) ∧
    ((((elastic 1 1).bay 0).viewAt (elastic 1 1).tc).tile 0).oq.strict = false ∧ ((elastic 1 1).tile 0 0).oq.entries = [0] ∧ ((elastic 0 1).tile 0 0).oq.entries = [] ∧
    (((laned 1).tile 0 0).tap true 7 0 (laned 1).tc).isSome = true ∧ okB ((withSlot accSlot (onBank 1)).slotAs 0 0 23) = true ∧
    okB ((onBank 1).bkOpnd (.v 1) 0 23) = true ∧ okB ((onBank 1).slotAs 0 0 23) = true ∧
    ((onBank 1).fillSlots 0 1023 0 12 0 63).tile 0 0 = (onBank 1).tile 0 0 := by
  refine ⟨by decide, .inr ⟨by decide, by decide⟩, .inl (by decide), by decide, by decide, by decide, by decide, by decide, by decide, by decide, rfl⟩

theorem witness_GatewayForms : allRun [(.ggth hd ⟨.a 0, .a 0, .a 2, .sel (.imm 5) 0⟩ 0 0, gw 0x20000C0040 (elastic 64 7)), (.ggth hd ⟨.v 0, .a 0, .a 2, .sel (.imm 5) 0⟩ 0 0, gw 0x20000C0001 (elastic 1 7)),
      (.gatm hd ⟨.v 0, .a 0, .imm 64, .sel (.imm 0) 0⟩ 0 0 true, onBank 7), (.gatm hd ⟨.v 0, .a 0, .imm 1, .sel (.imm 0x31) 0⟩ 63 0 false, withBay (fun y => { y with detm := true }) (onBank 7))] = true ∧
    popsFreely (gw 0x20000C0040 (elastic 64 7)) 0 0 (guardTargets hd (gw 0x20000C0040 (elastic 64 7)) ++ selTargets (.a 2) (gw 0x20000C0040 (elastic 64 7))) ∧
    (nth ((onBank 7).tile 0 0).rows ((onBank 7).strm.physV 0) {}).md.poison = false ∧ 64 ≤ atomMax ⟨.v 0, .a 0, .imm 64, .sel (.imm 0) 0⟩ ∧
    (0x31#8).extractLsb' 0 4 = 1 ∧ ((onBank 7).bay 0).detm = false := by
  refine ⟨by decide, .inr ⟨by decide, by decide⟩, by decide, by decide, by decide, by decide⟩

/-- CT at a WAITA whose read faulted, and one whose read did not. -/
def observed (f : Bool) : State := withTile (fun t => { t with watch := some (0, .watch 64 0 0 0, f) }) bound

theorem witness_WatchObserved : allRun [(.waita hd ⟨.a 1, .imm 0, .none, .sel .none 0⟩ 6, observed true), (.waita hd ⟨.a 1, .imm 0, .none, .sel .none 0⟩ 6, observed false)] = true ∧
    ((observed true).tile 0 0).watch = some (0, .watch 64 0 0 0, true) ∧ (observed true).tc = 0 ∧ (bound.watchWord 0 64).isNone = true ∧
    (observed false).horizonHit (guardTargets hd (observed false) ++ selTargets (.a 1) (observed false) ++ selTargets (.imm 0) (observed false) ++ selTargets .none (observed false)) = false := by
  decide

theorem witness_ReadsConvert : (nth (tagged { tag := 23, anchor := 5 }).curTile.rows 255 {}).md.tag = 23 ∧ (17#5 : BitVec 5).toNat ≤ 23 ∧ blockScaled 17 = true ∧
    (tagged { tag := 23 }).strm.ftm = false ∧ lanes 17 % 32 = 0 ∧ lanes 23 ≤ 32 ∧ (13#5 : BitVec 5).toNat ≤ 13 := by decide

theorem witness_DrawnWords : (1023 : Nat) < 1024 ∧ (decodeElem 12 false 127 0x7FC00000).isNan = true ∧ (decodeElem 12 false 127 0xFF800000).isNan = false ∧
    cmpV (decodeElem 12 false 127 0) (decodeElem 12 false 127 0x80000000) = .eq ∧ (0x80000000 : Nat) % 2 ^ 31 = 0 ∧
    decodeElem 12 false 127 0xFF800000 = .inf true := by decide

/-- MZERO that keeps rows whose contents vary: of ACC96, of FP32, and poisoned ones. -/
def keeping (r : Row) : State :=
  withRow 224 r (withStrm 2 (fun u => { u with q := put u.q 1 (~~~1) }) (on 2))
def part : Head := { hd with tt := 0xF0, pa := 1 }

theorem witness_KeptRows : allRun ([{}, mkRow 23 (List.replicate 32 0) 0 5, mkRow 12 [], { md := { poison := true } }, { md := { poison := true, zs := true } }].flatMap (fun r =>
      [(Instr.mzero part (oDA (.acc 7) (.imm 0)), keeping r), (Instr.manc hd (oDA (.acc 7) (.imm 0)), keeping r)])) = true ∧
    runsB (.mzero hd (oDA (.acc 7) (.a 1))) (withA 2 1 32768 (on 2)) = true ∧ ((withA 2 1 32768 (on 2)).intVal (.a 1) (.sel .none 0)).toInt = 32768 ∧
    (guardQ part (keeping {}).strm).getLsbD 0 = false ∧ (guardQ part (keeping {}).strm).getLsbD 16 = true ∧
    (nth ((keeping (mkRow 12 [])).tile 0 0).rows (32 * 7 + 0) {}).md.tag = 12 ∧ (nth ((keeping { md := { poison := true } }).tile 0 0).rows 224 {}).md.poison = true ∧
    (nth ((keeping (mkRow 23 (List.replicate 32 0) 0 5)).tile 0 0).rows 224 {}).md.tag = 23 := by decide

theorem witness_AccReads : isAcc (nth ((on 2).tile 0 0).rows 224 {}) ∧ isAcc (nth ((zeros7 2).tile 0 0).rows 224 {}) ∧ lanes 24 = 64 ∧
    runsB (.mrd hd ⟨.v 0, .acc 7, .imm 31, .sel .none 0⟩ (vm 23 false)) (on 2) = true := by
  refine ⟨⟨by decide, by decide⟩, ⟨by decide, by decide⟩, by decide, by decide⟩

/-- An elastic queue with 32 ascending offsets. -/
def mmasElastic : State := withTile (fun t => { t with oq := { t.oq with entries := (List.range 32).map (BitVec.ofNat 33) } }) (on 2)

theorem witness_ArrayForms : runsB (.mmas hd mm (vm 8 false)) mmasElastic = true ∧ popsFreely mmasElastic 0 0 (guardTargetsQ hd mmasElastic) ∧
    (mmasElastic.tile 0 0).popHazards 32 = [] ∧ ascending ((mmasElastic.tile 0 0).popped 32) = true ∧ (mmasElastic.mmasJob mm (vm 8 false) 0).passes = 2 ∧
    allRun [(.mwr hd ⟨.acc 7, .v 255, .imm 0, .sel .none 0⟩ (vm 23 false), tagged { tag := 23, anchor := 5 } |> fun s => { s with core := .tile 0 0 2 }),
      (.macc hd ⟨.acc 7, .v 255, .imm 0, .sel .none 0⟩ (vm 17 false), { on 2 with core := .tile 0 0 2 })] = true := by
  refine ⟨by decide, .inr ⟨by decide, by decide⟩, by decide, by decide, by decide, by decide⟩

theorem witness_LaneSources : runsB (.xbmp hd ⟨.lane true 7, .a 0, .imm 1, .sel .none 0⟩ false 0)
      (withTile (fun t => { t with lanes := [{ aw := true, n := 7, station := (stationOf 6 + 1) % 16, tc := 0, v := mkRow 6 (List.replicate 128 1) }] }) (withBay (fun y => { y with tclk := 1 }) (on 6))) = true ∧
    ((withTile (fun t => { t with lanes := [{ aw := true, n := 7, station := (stationOf 6 + 1) % 16, tc := 0, v := mkRow 6 (List.replicate 128 1) }] }) (on 6)).tile 0 0).tap true 7 (stationOf 6) 1
      = some (mkRow 6 (List.replicate 128 1)) := by decide

/-- A tile whose class `k` counter stands at `n` with threshold 5, and whose bay traps and interrupts on it and counts class 4. -/
def counting (k : Nat) (n : BitVec 32) : State :=
  withTile (fun t => { t with ev := put t.ev k n, evthr := put t.evthr k 5 }) (withBay (fun y => { y with evact := 0x1FFFFFFFF }) (on 0))

theorem witness_Events : (((counting 15 5).tile 0 0).addEvent 15 1).2 = true ∧ (((counting 15 6).tile 0 0).addEvent 15 1).2 = false ∧
    (nth (((counting 4 0xFFFFFFFF).tile 0 0).addEvent 4 1).1.ev 4 0).toNat = 2 ^ 32 - 1 ∧
    (((counting 4 5).tile 0 0).addEvents true [(4, 1), (15, 1)]).2 = [4] ∧ (((counting 4 5).tile 0 0).addEvents false [(4, 1)]).2 = [] ∧
    ((counting 15 5).timedEvents 0 0 [(15, 1)]).2 = [0x0CF] ∧ ((counting 15 6).timedEvents 0 0 (tally [15])).2 = [] := by decide

def landed0 (s : State) : Landed := { t := s.tile 0 0, traps := [], crossed := [] }

theorem witness_LandedEvents : (((counting 11 5).tile 0 0).applyAll 0 [.a 0 31 7]).2.1 = [] ∧
    11 ∈ (((counting 11 5).tile 0 0).addEvents true [(11, 1)]).2 ∧ ((counting 11 5).bay 0).evact.getLsbD 22 = true ∧ ((counting 11 5).bay 0).phase ≠ .trapped ∧
    ((Landed.add ((counting 11 5).bay 0) 0 0 (landed0 (counting 11 5)) { due5 with due := 0, strm := 0, evs := [(11, 1)], what := [.a 0 31 7] }).traps.map (·.cause)) = [0x0CB] := by
  refine ⟨by decide, by decide, by decide, by decide, by decide⟩

theorem witness_DeviceDoubleTrap : let s (fs : List FlashImage) : State := { State.reset with core := .steward 8, stewards := put State.reset.stewards 8 { running := true, estat := 4 }, flash := fs }
    let other : FlashImage := { image0 true with kind := 2, die := 4 }
    ((s []).steward 8).estat.getLsbD 2 = true ∧ ((s [other]).flash.find? (fun f => f.kind == 2#8 && f.die == 4#8 && f.slotB != ((s []).steward 8).slotB && f.verifies)) = some other := by decide

/-- A store of two slots whose images overlap, of block-scaled ones, and a copy over two lines. -/
def store2 : CmdKind := .store (.slots 7 1022) [0, 32] 5
def store3 : CmdKind := .store (.slots 7 1022) [0, 544] 17
def copy2 : CmdKind := .copy 200 100 60
def onePiece (i a n : Nat) : Piece := { index := i, va := a, bytes := List.replicate n (BitVec.ofNat 8 (i + 1)) }

theorem witness_Images : (vaPieces 32 (zeros 544)).all (fun p => match (mapped (cmd0 store3 false)).walk 0 p.1 with
      | .ok g => g.w && !g.c
      | .error _ => false) = true ∧
    ([0, 32] : List Word).length = 2 ∧ blockScaled 17 = true ∧ blockScaled 5 = false ∧ ((runOf0 store2 (mapped (cmd0 store2 false))).slotSource 7 1023).md.poison = false ∧
    ((pieceRuns [onePiece 0 0 96, onePiece 1 32 96] 128 0).map (fun p => (p.index, p.va, p.bytes.length))) = [(0, 0, 128)] ∧
    pieceByte [onePiece 0 0 96, onePiece 1 32 96] 32 = some (2, 1) ∧ pieceByte [onePiece 0 0 96, onePiece 1 32 96] 31 = some (1, 0) ∧
    spansOf 100 60 = [(100, 28), (128, 32)] := by decide +kernel

theorem witness_Copies : ((mapped (cmd0 copy2 false)).imageRead 0 0 100 28).2.2 = none ∧
    (((runOf0 copy2 (mapped (cmd0 copy2 false))).copySource 0 [(100, 28), (128, 32)]).2.all (fun v => v.2)) = true ∧
    (((runOf0 copy2 (mapped (cmd0 copy2 false))).copySource 0 [(100, 28), (128, 32)]).2).length = 60 ∧
    ((mapped (cmd0 copy2 false)).imageRead 0 0 (2 ^ 30) 1).2.2.isSome = true := by decide +kernel

/-- A page that maps CXL memory for the atomic's second element, and a token whose command counts event 11 past its threshold. -/
def counted : State := withTile (fun t => { t with ev := put t.ev 11 5, evthr := put t.evthr 11 5 }) (withBay (fun y => { y with evact := 0xFFFFFFFF })
  (mapped { cmd0 (.fence 0) true with evs := [(11, 1)] }))

theorem witness_CountedToken : ({ cmd0 (.fence 0) true with evs := [(11, 1)] } : Cmd).finished = true ∧ (nth (counted.tile 0 0).toks 63 {}).out = true ∧
    (nth (counted.tile 0 0).evthr 11 0).toNat = 5 ∧ (nth (counted.tile 0 0).ev 11 0).toNat ≤ 5 ∧ 5 < min ((nth (counted.tile 0 0).ev 11 0).toNat + 1) (2 ^ 32 - 1) ∧
    (counted.bay 0).evact.getLsbD (2 * 11) = true ∧ (counted.bay 0).evact.getLsbD (2 * 11 + 1) = true ∧ ((counted.bay 0).cluster 0).faults = [] := by decide

/-- Collective 0 holds its byte 31 already. -/
def present : State := withBay (fun y => { y with ep := { y.ep with colls := y.ep.colls.map (fun c => { c with present := [(31, (1, false))] }) } }) (mapped (cmd0 fill0 true))

theorem witness_PresentByte : ((present.bay 0).collOf (present.coAt 0 31) 31 0).map (fun c => find c.present (31 - c.cbase)) = some (some (1, false)) := by decide

theorem witness_SlotFills : ((mapped (cmd0 (.fill (.slots 7 0) [0] 0 12) true)).tile 0 0).holdsFill 7 0 = false ∧
    ((onBank 7).bay 0).hasSlot 0 0 1023 = true ∧ ((mapped (cmd0 fill0 true)).bay 0).hasSlot 0 7 0 = false ∧
    ((withTile (fun t => { t with pend := [{ due5 with what := [.slot 7 0 true 0 0 12 0] }] }) (mapped (cmd0 (.fill (.slots 7 0) [0] 0 12) true))).tile 0 0).holdsFill 7 0 = true := by decide

theorem witness_AtomicElements : (mapped (cmd0 (.atomic (.row 0 {}) 0 2 0 0 true) false)).walk 0 4 = .ok { loc := 4, size := 2 ^ 29, w := true, x := false, cl := 0, wp := 0, ev := 0, zs := false, c := false, co := 0 } ∧
    ((((mapped (cmd0 fill0 false)).clearCopies 0 0 0).countHome 0 0).homeLine 0).bad = false ∧ (pairsOf [1, 2, 3, 4]) = [(1, 2), (3, 4)] := by decide

/-- CALLs of a bay wait for function 1, which no cluster has, and of cluster 7's queue there is no request for it. -/
def lostRequest : State := withBay (fun y => { y with entering := [{ due := 9, tile := 0, strm := 0, fn := 1, addr := 0 }] }) (prefetching 0)

theorem witness_PrefetchFails : (lostRequest.bay 0).awaits 1 = true ∧ (prefetching 1).stageFn 0 1 = none ∧ ((prefetching 1).bay 0).awaits 1 = false ∧
    ((lostRequest.bay 0).entering.find? (fun e => e.fault.isNone && !(lostRequest.bay 0).hasFn 7 e.fn && !((lostRequest.bay 0).cluster 7).prefetch.contains e.fn)).isSome = true ∧
    (((lostRequest.bay 0).reask 7).cluster 7).prefetch = [1, 0] ∧ ((lostRequest.bay 0).cluster 7).prefetch.length < 16 := by decide

theorem witness_FreezeGoesOn : (freezing.waitsAt 0 5).map (fun w => w.cond) = [.resident 1] ∧ (freezing.bay 0).freeze = none ∧ (freezing.bay 0).released = none ∧
    ((freezing.refreeze 0).freeze.map (fun f => (f.tc, f.since, f.resume))) = some (5, 0, none) ∧ (running (fun y => { y with tclk := 5 })).waitsAt 0 5 = [] ∧
    (freezing.bay 0).hopeless 0 5 (.resident 1) = false ∧ (freezing.bay 0).hopeless 0 5 (.sem 15 1) = true ∧
    (freezing.bay 0).hopeless 0 5 (.mtx 7) = true ∧ (freezing.bay 0).hopeless 0 5 (.pop 1) = true := by decide +kernel

theorem witness_Muster : let s := running (fun y => { y with phase := .staged })
    (s.bay 0).phase = .staged ∧ s.linkUp s.mirrorPort = true ∧ ({ s with ports := 0xFFFFFF } : State).linkUp s.mirrorPort = false ∧
    ({ s with ports := 0xFFFFFF } : State).snapshotOf (s.bay 0).job (s.bay 0).rankid = none := by decide

theorem witness_HeldChild : (((tree [leaf0 0 1, leaf0 0 2]).bay 0).ep.value 5 0 2).isSome = true ∧ (tree []).linkUp 0 = true ∧
    (leaf0 2 4).lo - (leaf0 2 4).lo % (2 * ((leaf0 2 4).hi - (leaf0 2 4).lo)) = 0 ∧
    toRoot.allReceived 7 (toRoot.descriptor (toRoot.bay 0) 0) 5 32 none = false := by decide

/-- A rank switched out at its second step, with the snapshot of its second step: one page, and its context. -/
def standing : State :=
  { ready with snapshots := [{ job := 7, rank := 2, gens := ({ pages := [(3, [1])], ctx := [0, 0, 2] }, {}), since := [3] }], parked := [out 2 0] }
def newer : Snapshot := { job := 7, rank := 2, gens := ({ pages := [(3, [1])], ctx := [0, 0, 2] }, {}), since := [3] }
/-- An image of 0x58 bytes of rank 2 of job 7. -/
def brought : ImageData :=
  { launch := false, pages := [], hits := [], ctx := zeros 2 ++ [2, 0, 2, 0, 0, 0, 7] ++ zeros 0x47 ++ [0x58] ++ zeros 7 }

theorem witness_Restores : standing.snapshotOf 7 2 = some newer ∧ standing.saveOf 7 2 = some 0 ∧ standing.turning newer = false ∧ standing.roomToRestore newer = true ∧
    newer.current.launch = false ∧ newer.current.ctx ≠ [] ∧ newer.stale = [(3, [1])] := by decide

theorem witness_Brings : ready.mayBring 7 2 0x8000 brought = true ∧ brought.launch = false ∧ ready.linkUp 23 = true := by decide

/-- CALL and RET of stream 3 with a cause of their own: `v` in b0 names the target. -/
def calling (v : Word) (s : State) : State := withStrm 3 (fun u => { u with b := put u.b 0 v }) (withBay (fun y => { y with fnCount := 2 }) s)
def slotted : State := withStrm 3 (fun u => { u with xfer := some { fn := 0, off := 0, tc := 0 } }) (withBay (fun y => { y with tclk := 4 }) (inCode 3))
def wroteB : State := withTile (fun t => { t with hist := [(0, .b 3 0)] }) (withBay (fun y => { y with tclk := 1 }) (inCode 3))

theorem witness_CallCauses : allRun [(.call hd (oD (.b 0)), slotted), (.ret hd (oD (.b 0)), slotted), (.call hd (oD (.b 0)), wroteB),
      (.call hd (oD (.b 0)), calling 0x200000000 (inCode 3)), (.call hd (oD (.b 0)), calling 0x100000000 (inCode 3))] = true ∧
    slotted.inDelaySlot = true ∧ wroteB.inDelaySlot = false ∧ wroteB.lateWrite (guardTargets hd wroteB ++ [.b 3 0]) = true ∧
    (calling 0x200000000 (inCode 3)).badTarget 0x200000000 false false = true ∧ (calling 0x100000000 (inCode 3)).badTarget 0x100000000 false false = false ∧
    (calling 0x100000000 (inCode 3)).calleeSize 0 1 = none ∧ (calling 0 (inCode 3)).fitsAll 0 1 (2 ^ 24) = false := by decide

def armed : State := withTile (fun t => { t with toks := put t.toks 63 { out := true, arm := some (.mtx 7) } }) held

theorem witness_ArmedToken : runsB (.mtxu hd (oD (.imm 7)) true 63) armed = true ∧ (armed.mtx 7).held = true ∧ (armed.mtx 7).owner = 0 ∧ (armed.mtx 7).armed = false ∧
    armed.tokBusy 63 = true ∧ (nth (armed.tile 0 0).toks 63 {}).arm ≠ none := by decide

theorem witness_NodeOperations : ((List.range 10).all (fun n => (extra (.sel .none (BitVec.ofNat 20 n))).extractLsb' 0 4 == BitVec.ofNat 4 n)) = true ∧
    (1 : Nat) < 2 ^ elemWidth 1 ∧ (0xFF : Nat) < 2 ^ elemWidth 7 ∧ (decodeElem 12 false 127 0x7F800001).isSnan = true ∧ (decodeElem 12 false 127 0x7FC00000).isNan = true ∧
    (decodeElem 12 false 127 0x80000000).isNan = false ∧ (0x7FC0000000000000 : Nat) < 2 ^ 64 ∧ (7 : Nat) < 8 := by decide

/-- The same page with CL 2, and line 0 dirty in the tile's line cache or in none. -/
def cached (ls : List Line) : State :=
  (fun s => { s with mem := [(0x200000, 1), (0x200003, 0x10), (0x200004, 0x02), (0x210000, 0x2B)] })
    (withTile (fun t => { t with lines := ls, fifo := ls.map Line.no }) (mapped (cmd0 (.prefetch 0 1 2) false)))

theorem witness_Ranges : (((cached []).rangeLines 0 0 1).map (fun l => (l.1, l.2.cl))) = [(0, 2)] ∧ (((cached []).rangeLines 0 127 2).map Prod.fst) = [0, 1] ∧
    lineIn ((cached [{ no := 0, data := 1, mask := 1 }]).tile 0 0).lines 0 = some { no := 0, data := 1, mask := 1 } ∧
    lineIn ((cached []).tile 0 0).lines 0 = none ∧ ((cached []).l2Line 0).bad = false ∧ 1 ≤ ((cached []).bay 0).lineCapacity 0 := by decide

theorem witness_GridElement : (gridRun0.2.map (fun g => (gridRun0.1.gridElem g.sf g.src g.ss (0, 0, 0) 0).2.map Prod.snd)) = some (some false) := by
  decide +kernel

theorem witness_CountWatch : ((mapped (cmd0 fill0 false)).walk 0 8).toOption.map (fun p => tierOf p.loc) = some 0 ∧ (mapped (cmd0 fill0 false)).dieLine 0 = none ∧
    (8 : Word).toNat % 8 = 0 := by decide

/-- A draw not yet landed: its record is in flight, and the draw counter is one on. -/
def drawn : State := withTile (fun t => { t with pend := [{ due5 with issued := 0, addr := (on 8).addr }], strms := put t.strms 8 { t.strm 8 with draw := 1 } }) (on 8)
def noted : Tile := { early := [{ strm := 8, issued := 0, addr := 0, what := .chan 15 {} }] }

theorem witness_TakenBack : OnTile (on 8) 0 0 8 ∧ (drawn.tile 0 0).issueTrap (on 8).tc 8 (on 8).addr = none ∧ (drawn.tile 0 0).inFlight 8 (on 8).tc (on 8).addr = true ∧
    ((drawn.tile 0 0).strm 8).draw ≠ (((on 8).tile 0 0).strm 8).draw ∧ noted.early.filter (fun e => e.by_ 8 0 0) = noted.early ∧
    (∀ e ∈ noted.early, e.by_ 8 1 0 = false) := by
  refine ⟨⟨rfl, by decide, by decide, by decide⟩, by decide, by decide, by decide, by decide, by decide⟩

theorem witness_ElementParts : ((tree []).descriptor ((tree []).bay 0) 0).op = 1 ∧ ((tree []).descriptor ((tree []).bay 0) 0).elemBytes = 4 ∧
    (leaf0 0 1).bytes.length = 32 ∧ (leaf0 0 1).bad.length = 32 ∧ (tree []).receiversHere 7 ((tree []).descriptor ((tree []).bay 0) 0) 32 = [0] := by decide

theorem witness_Departs : standing.linkUp 0 = true ∧ standing.mayDepart 7 2 = true ∧ ready.mayDepart 7 2 = false ∧
    ({ standing with snapshots := standing.snapshots.map (fun z => { z with restored := true }) } : State).mayDepart 7 2 = true ∧
    (standing.bay 7).engaged = false := by decide

end Sys2Proof.Tests
end

