-- ==== Sys2Proof/Proofs/Transfers.lean ====
section
/-! PROOFS. Transfers of control (05_control_registers R133 to R138): what a BR does when taken and when suppressed, and when a
stream turns to the target of a transfer it has taken. -/

namespace Sys2Proof.Machine

open Sys2Proof.Safety

/-! ## The target of a transfer (R135) -/

/-- A good target of a word that stays in its function names the function the stream executes. -/
theorem badTarget_false_fn {s : State} {b x k : Nat} {v : Word} {useOff : Bool} (hc : s.core = .tile b x k)
    (hv : s.badTarget v true useOff = false) : v.extractLsb' 32 24 = BitVec.ofNat 24 s.strm.cur.1 := by
  have hfn : (v.extractLsb' 32 24).toNat = s.strm.cur.1 := by
    simp only [State.badTarget, hc, Bool.or_eq_false_iff, Bool.true_and, bne_eq_false_iff_eq] at hv
    obtain ⟨⟨⟨-, hfn⟩, -⟩, -⟩ := hv
    exact hfn
  rw [← hfn, BitVec.ofNat_toNat, BitVec.setWidth_eq]

/-- A taken transfer to a good target, no other pending, has no cause (R134, R135). -/
theorem transferHazards_nil {s : State} {v : Word} (hd : s.inDelaySlot = false) (hv : s.badTarget v true true = false) :
    transferHazards v s = [] := by
  simp [transferHazards, hd, hv, when_false]

/-- On a tile a transfer to a good target goes to the offset that target names, in the current function. -/
theorem transferTo_tile {s : State} {b x k : Nat} {v : Word} {useOff : Bool} (hc : s.core = .tile b x k)
    (hv : s.badTarget v true useOff = false) :
    s.transferTo v = s.setStrm { s.strm with
      xfer := some { fn := BitVec.ofNat 24 s.strm.cur.1, off := (v.extractLsb' 0 32).toNat, tc := s.tc } } := by
  rw [← badTarget_false_fn hc hv]
  simp [State.transferTo, State.transfer, hc]

/-! ## BR (R138) -/

theorem exec_br (h : Head) (o : Ops) (s : State) : exec (.br h o) s =
    scalarWord allStreams true (.br h o) h s (fun s => transferHazards (s.strm.readB (bReg o.d)) s)
      (fun s => s.transferTo (s.strm.readB (bReg o.d))) := rfl

/-- An active BR with a good target, no other transfer pending, takes its transfer, on a tile and on a steward core. -/
theorem exec_br_taken {h : Head} {o : Ops} {s : State} {n : BitVec 3} (hr : Runs (.br h o) s) (ho : o.d = .b n)
    (hd : s.inDelaySlot = false) (hv : s.badTarget (s.strm.readB n) true true = false) :
    exec (.br h o) s = .next (s.transferTo (s.strm.readB n)) := by
  obtain ⟨hp, hg, -, hf⟩ := hr
  have hn : bReg o.d = n := by rw [ho, bReg]
  rw [exec_br, hn]
  exact scalarWord_runs (hp _ _ rfl) (hg h rfl) hf (transferHazards_nil hd hv)

theorem exec_br_suppressed {h : Head} {o : Ops} {s : State} (hp : Placed (.br h o) s) (hg : guardP h s.strm = false) :
    exec (.br h o) s = .next s := by
  rw [exec_br]
  exact scalarWord_suppressed (hp _ _ rfl) hg

/-! ## When a taken transfer takes hold (R133) -/

/-- From tc + 5 on, the target word is the stream's next. -/
theorem Strm.turnTo_next_due {u : Strm} {x : Xfer} {fn : BitVec 24} {off base c : Nat} (hn : u.next = .word fn off base)
    (hx : u.xfer = some x) (hc : x.tc + 5 ≤ c) : (u.turnTo c).next = .word x.fn x.off (x.tc + 5) := by
  simp [Strm.turnTo, hn, hx, hc]

/-- In the four exposed delay slots a stream stands where it stood. -/
theorem Strm.turnTo_early {u : Strm} {x : Xfer} {c : Nat} (hx : u.xfer = some x) (hc : c < x.tc + 5) : u.turnTo c = u := by
  have hc' : ¬ x.tc + 5 ≤ c := by omega
  cases hn : u.next <;> simp [Strm.turnTo, hn, hx, hc']

/-- Settles O24: `exec_br_taken` with the target a tile's register names, `exec_br_suppressed`, and the two halves of
`Strm.turnTo`. -/
theorem brIsConditional : Obligations.BrIsConditional := by
  unfold Obligations.BrIsConditional
  refine ⟨?taken, ?suppressed, ?sequence⟩
  case taken =>
    intro h o s n b x k hr hc ho hd hv go
    rw [exec_br_taken hr ho hd hv, transferTo_tile hc hv]
  case suppressed =>
    intro h o s hp hg
    exact exec_br_suppressed hp hg
  case sequence =>
    intro u x fn off base hn hx
    exact ⟨fun c hc => Strm.turnTo_next_due hn hx hc, fun c hc => by rw [Strm.turnTo_early hx hc]⟩

end Sys2Proof.Machine
end

