-- ==== Sys2Proof/Proofs/Returns.lean ====
section
/-! PROOFS. The return from an exception (15_traps R381; 05_control_registers R150): what ERET does on a steward core and on a
tile, what its write of estat gives, and which bits the steward trap registers keep (15_traps Table 3). -/

namespace Sys2Proof.Machine

open Sys2Proof.Safety

/-! ## A steward core's posts and transfers -/

/-- What a post does on a steward core: one record in flight more, and nothing else. -/
theorem post_steward {s : State} {k : Nat} (lat : Nat) (what : List Land) (evs : List (Nat × Nat))
    (hc : s.core = .steward k) :
    s.post lat what evs = s.setSteward k { s.steward k with pend := (s.steward k).pend ++
      [{ due := (s.steward k).tc + lat, issued := (s.steward k).tc, strm := 0, addr := s.addr, evs := evs, what := what }] } := by
  simp [State.post, State.tc, State.strmNo, hc]

/-- What a transfer does on a steward core: its one stream holds it, taken in the core's tc, and nothing else changes. -/
theorem transfer_steward {s : State} {k : Nat} (fn : BitVec 24) (off : Nat) (hc : s.core = .steward k) :
    s.transfer fn off = s.setSteward k { s.steward k with
      strm := { (s.steward k).strm with xfer := some { fn := fn, off := off, tc := (s.steward k).tc } } } := by
  simp [State.transfer, State.setStrm, State.strm, State.tc, hc]

/-! ## ERET at its issue (R150, R381) -/

/-- The causes ERET raises beyond those of its own bits. -/
def eretHazards (s : State) : List Hazard :=
  when (!s.onSteward) 0x008 ++ when s.inDelaySlot 0x041
    ++ (match s.core with
        | .steward k => when (s.badTarget (s.steward k).epc false false) 0x047
        | .tile _ _ _ => [])

theorem exec_eret (h : Head) (o : Ops) (s : State) :
    exec (.eret h o) s = scalarWord allStreams true (.eret h o) h s eretHazards (fun s => s.eretCore) := rfl

theorem eretHazards_steward {s : State} {k : Nat} (hc : s.core = .steward k) (hd : s.inDelaySlot = false)
    (hv : s.badTarget (s.steward k).epc false false = false) : eretHazards s = [] := by
  simp [eretHazards, State.onSteward, hc, hd, hv, when_false]

theorem eretHazards_tile {s : State} (hs : s.onSteward = false) (hd : s.inDelaySlot = false) :
    eretHazards s = [(0x008, 0)] := by
  cases hc : s.core with
  | tile b x k => simp [eretHazards, hc, hs, hd, when_false, when_true]
  | steward k => simp [State.onSteward, hc] at hs

/-- An active ERET of a steward core whose epc is a good target, no other transfer pending, returns. -/
theorem exec_eret_returns {h : Head} {o : Ops} {s : State} {k : Nat} (hr : Runs (.eret h o) s) (hc : s.core = .steward k)
    (hd : s.inDelaySlot = false) (hv : s.badTarget (s.steward k).epc false false = false) :
    exec (.eret h o) s = .next s.eretCore := by
  obtain ⟨hp, hg, -, hf⟩ := hr
  rw [exec_eret]
  exact scalarWord_runs (hp _ _ rfl) (hg h rfl) hf (eretHazards_steward hc hd hv)

/-- An active ERET of a tile, which runs in the unprivileged view, raises 0x008. -/
theorem exec_eret_unprivileged {h : Head} {o : Ops} {s : State} (hr : Runs (.eret h o) s) (hs : s.onSteward = false)
    (hd : s.inDelaySlot = false) : exec (.eret h o) s = .next (s.raise 0x008) := by
  obtain ⟨hp, hg, -, hf⟩ := hr
  rw [exec_eret]
  refine scalarWord_raises (hp _ _ rfl) (hg h rfl) ?_
  rw [hf, eretHazards_tile hs hd]
  exact worst_single _

/-- The record of estat's write that an ERET of steward core `k` puts in flight. -/
def State.eretPend (s : State) (k : Nat) : Pend :=
  { due := (s.steward k).tc + 5, issued := (s.steward k).tc, strm := 0, addr := s.addr, evs := [],
    what := [.eret ((s.steward k).estat.getLsbD 1)] }

theorem eretCore_eq {s : State} {k : Nat} (hc : s.core = .steward k) :
    s.eretCore = (s.post 5 [.eret ((s.steward k).estat.getLsbD 1)]).transfer 0 (s.steward k).epc.toNat := by
  simp only [State.eretCore, hc]

/-- The core after its ERET: that record in flight, and the transfer to epc taken. -/
theorem eretCore_steward {s : State} {k : Nat} (hc : s.core = .steward k) (hk : k < 9) :
    s.eretCore.steward k = { s.steward k with
      pend := (s.steward k).pend ++ [s.eretPend k]
      strm := { (s.steward k).strm with
        xfer := some { fn := 0, off := (s.steward k).epc.toNat, tc := (s.steward k).tc } } } := by
  have hcore : (s.post 5 [.eret ((s.steward k).estat.getLsbD 1)]).core = .steward k := by rw [post_core, hc]
  rw [eretCore_eq hc, transfer_steward _ _ hcore, steward_setSteward_same _ _ _ hk, post_steward _ _ _ hc,
    steward_setSteward_same _ _ _ hk]
  rfl

/-! ## ERET's write of estat, where it lands -/

/-- estat after ERET's write: pie stays, ie takes what pie was at the issue, and act is 0. -/
def eretStat (e : BitVec 3) (pie : Bool) : BitVec 3 := e &&& 2#3 ||| (if pie then 1#3 else 0#3)

theorem landOwn_eret (s : State) (k : Nat) (pie : Bool) :
    s.landOwn k (.eret pie) = s.setSteward k { s.steward k with estat := eretStat (s.steward k).estat pie } := rfl

@[simp] theorem eretStat_ie (e : BitVec 3) (pie : Bool) : (eretStat e pie).getLsbD 0 = pie := by
  cases pie <;> simp [eretStat]

@[simp] theorem eretStat_pie (e : BitVec 3) (pie : Bool) : (eretStat e pie).getLsbD 1 = e.getLsbD 1 := by
  cases pie <;> simp [eretStat]

@[simp] theorem eretStat_act (e : BitVec 3) (pie : Bool) : (eretStat e pie).getLsbD 2 = false := by
  cases pie <;> simp [eretStat]

/-! ## The bits of the trap registers (Table 3) -/

/-- The assigned bits of ecause: the cause, async and rank. -/
theorem ecauseMask_bit : ∀ i < 64, (0x301FF#18).getLsbD i = (decide (i < 9) || decide (i = 16) || decide (i = 17)) := by
  decide

/-- The assigned bits of epc: a 16-byte aligned address of 48 bits. -/
theorem epcMask_bit : ∀ i < 64, (0x0000FFFFFFFFFFF0#64).getLsbD i = decide (4 ≤ i ∧ i < 48) := by
  decide

theorem setCr_ecause_bit (w : Steward) (v : Word) {i : Nat} (hi : i < 64) :
    ((w.setCr 0x41 v).cr 0x41).getLsbD i = ((decide (i < 9) || decide (i = 16) || decide (i = 17)) && v.getLsbD i) := by
  rw [← ecauseMask_bit i hi]
  have hlow : (0x301FF#18).getLsbD i = true → i < 18 := BitVec.lt_of_getLsbD
  have hcr : (w.setCr 0x41 v).cr 0x41 = (v.extractLsb' 0 18 &&& 0x301FF#18).setWidth 64 := rfl
  rw [hcr, BitVec.getLsbD_setWidth, BitVec.getLsbD_and, BitVec.getLsbD_extractLsb']
  cases hm : (0x301FF#18).getLsbD i
  · simp
  · simp [hi, hlow hm]

theorem setCr_epc_bit (w : Steward) (v : Word) {i : Nat} (hi : i < 64) :
    ((w.setCr 0x42 v).cr 0x42).getLsbD i = (decide (4 ≤ i ∧ i < 48) && v.getLsbD i) := by
  have hcr : (w.setCr 0x42 v).cr 0x42 = v &&& 0x0000FFFFFFFFFFF0#64 := rfl
  rw [hcr, BitVec.getLsbD_and, epcMask_bit i hi, Bool.and_comm]

theorem setCr_estat_bit (w : Steward) (v : Word) {i : Nat} (hi : i < 64) :
    ((w.setCr 0x43 v).cr 0x43).getLsbD i = (decide (i < 3) && v.getLsbD i) := by
  have hcr : (w.setCr 0x43 v).cr 0x43 = (v.extractLsb' 0 3).setWidth 64 := rfl
  simp [hcr, hi]

theorem setCr_escr (w : Steward) (v : Word) : (w.setCr 0x44 v).cr 0x44 = v := rfl

/-- Every steward core is at its reset values after device reset. -/
theorem steward_reset {k : Nat} (hk : k < 9) : State.reset.steward k = {} := by
  simp [State.steward, State.reset, nth, hk]

/-- ecause, epc, estat and escr reset to zero. -/
theorem cr_of_reset {n : Nat} (hlo : 0x41 ≤ n) (hhi : n ≤ 0x44) : ({} : Steward).cr n = 0 := by
  obtain rfl | rfl | rfl | rfl : n = 0x41 ∨ n = 0x42 ∨ n = 0x43 ∨ n = 0x44 := by omega
  all_goals rfl

/-- Settles O25: `exec_eret_returns` with the core that `eretCore_steward` gives, the bits of `eretStat` where it lands,
the two halves of `Strm.turnTo`, `exec_eret_unprivileged` on a tile, and the bits each trap register keeps. -/
theorem eretReturns : Obligations.EretReturns := by
  unfold Obligations.EretReturns
  refine ⟨⟨?returns, ?lands, ?sequence, ?unprivileged⟩, ?fields, ?reset⟩
  case returns =>
    intro h o s k hr hc hk hd hv
    refine ⟨s.eretCore, s.eretPend k, exec_eret_returns hr hc hd hv, ?_⟩
    rw [eretCore_steward hc hk]
    exact ⟨rfl, rfl, rfl, rfl, rfl, rfl⟩
  case lands =>
    intro s k pie _
    exact ⟨_, landOwn_eret s k pie, eretStat_ie _ _, eretStat_pie _ _, eretStat_act _ _⟩
  case sequence =>
    intro u x fn off base hn hx
    exact ⟨fun c hc => Strm.turnTo_next_due hn hx hc, fun c hc => by rw [Strm.turnTo_early hx hc]⟩
  case unprivileged =>
    intro h o s hr hs hd
    exact exec_eret_unprivileged hr hs hd
  case fields =>
    intro w v i hi
    exact ⟨setCr_ecause_bit w v hi, setCr_epc_bit w v hi, setCr_estat_bit w v hi, by rw [setCr_escr]⟩
  case reset =>
    intro k n hk hlo hhi
    rw [steward_reset hk, cr_of_reset hlo hhi]

end Sys2Proof.Machine
end
